-- ==== Sys2Proof/Word.lean ====
section
/-! DEFINITION. The plain words of the part: bytes, site time, port numbers. -/

namespace Sys2Proof

/-- A byte of a mailbox, of a record or of the journal array. -/
abbrev Byte := BitVec 8

/-- Site time counted in 1/1024 s: seconds times 1024 plus the fraction (R27). -/
abbrev SiteTime := Nat

/-- The four link ports LP0..LP3 (R181). -/
abbrev PortNo := Fin 4

end Sys2Proof
end

