-- ==== Sys2Proof/Syntax.lean ====
section
/-! DEFINITION. The commands of the part: one constructor per row of spec/opcode_table.json, with
the operands each row's rule names. -/

namespace Sys2Proof

/-- The three operating blocks, in the order of R186. -/
inductive Engine where
  | winch | grout | stress
  deriving DecidableEq, Repr

/-- The two quadrature encoders (R48). -/
inductive Encoder where
  | drum | ram
  deriving DecidableEq, Repr

/-- The levels of the two phases (A, B) of an encoder (R48). -/
structure PhasePair where
  a : Bool
  b : Bool
  deriving DecidableEq, Repr

/-- The four valve outputs (R68). -/
inductive Valve where
  | winch | pump | jackAdvance | jackRelease
  deriving DecidableEq, Repr

/-- What caused a start-up (R28). -/
inductive StartCause where
  | power | line
  deriving DecidableEq, Repr

/-- The two strap pins of a port as they stand at start-up: true is high (R181). -/
structure Straps where
  second : Bool
  first : Bool
  deriving DecidableEq, Repr

/-- The pins the part reads at start-up: the straps (R181), the trip line (R67) and the encoders'
phase levels (R56). -/
structure StartPins where
  lp0 : Straps
  lp1 : Straps
  lp2 : Straps
  lp3 : Straps
  tripLow : Bool
  drum : PhasePair
  ram : PhasePair
  deriving DecidableEq, Repr

/-- What the array reads back after each programming of an append, in the order of R171 and R172:
the record, the entry that follows it (SPOILED when the record read back wrong), the retried
record and its entry. `none`: it reads back as programmed. -/
structure AppendRun where
  record : Option (List Byte) := none
  entry : Option (List Byte) := none
  retryRecord : Option (List Byte) := none
  retryEntry : Option (List Byte) := none
  deriving DecidableEq, Repr

/-- What the start-up scan's own programmings read back: the header it may write (R168), and the
SPOILED entry it may program (R174). `none`: it reads back as programmed. -/
structure ScanRun where
  header : Option (List Byte) := none
  spoiledEntry : Option (List Byte) := none
  deriving DecidableEq, Repr

/-- The commands. A request names its port and the bytes that its submission writes from mailbox
offset 01h on: the parameter length, then the parameters (R183, R187; log entry 23). -/
inductive Instr where
  /-- R25: a start-up, with its cause, the pins it reads, and how many programmings of an append
  in flight it cut short, with what they left (log entry 9). -/
  | startUp (cause : StartCause) (pins : StartPins) (phases : Nat) (run : AppendRun)
  /-- R183: a write transfer from an offset, with its bytes and whether a stop condition ends it. -/
  | mailboxWrite (p : PortNo) (offset : Byte) (bytes : List Byte) (stop : Bool)
  | declare (p : PortNo) (form : List Byte)
  | withdraw (p : PortNo) (form : List Byte)
  | abandon (p : PortNo) (form : List Byte)
  | seek (p : PortNo) (form : List Byte)
  | nextRecord (p : PortNo) (form : List Byte)
  | inspect (p : PortNo) (form : List Byte)
  | startWinch (p : PortNo) (form : List Byte)
  | continueWinch (p : PortNo) (form : List Byte)
  | abortWinch (p : PortNo) (form : List Byte)
  | startGrout (p : PortNo) (form : List Byte)
  | continueGrout (p : PortNo) (form : List Byte)
  | abortGrout (p : PortNo) (form : List Byte)
  | startTest (p : PortNo) (form : List Byte)
  | abortTest (p : PortNo) (form : List Byte)
  | clearTrip (p : PortNo) (form : List Byte)
  | postBatch (p : PortNo) (form : List Byte)
  | discardBatch (p : PortNo) (form : List Byte)
  | postWall (p : PortNo) (form : List Byte)
  | setTime (p : PortNo) (form : List Byte)
  | shiftTime (p : PortNo) (form : List Byte)
  | readPanels (p : PortNo) (form : List Byte)
  | readJournal (p : PortNo) (form : List Byte)
  | stageSetting (p : PortNo) (form : List Byte)
  | stageProfile (p : PortNo) (form : List Byte)
  | dropStaging (p : PortNo) (form : List Byte)
  | commitSettings (p : PortNo) (form : List Byte)
  | readEvents (p : PortNo) (form : List Byte)
  | clearEvents (p : PortNo) (form : List Byte)
  | setMask (p : PortNo) (form : List Byte)
  | partStatus (p : PortNo) (form : List Byte)
  /-- R65: the trip line goes from high to low. -/
  | tripLineAssertion
  /-- R64: the trip line goes from low to high. -/
  | tripLineRelease
  /-- R65: the engine handles the arbiter's notice of a trip. -/
  | tripNotice (e : Engine)
  /-- R66: the engine handles the arbiter's notice of the clear. -/
  | clearNotice (e : Engine)
  /-- R60: the engine's claim arrives at the arbiter. -/
  | claim (e : Engine)
  /-- R62: a grant reaches its engine. -/
  | grant (e : Engine)
  /-- R63: the engine's release arrives at the arbiter. -/
  | release (e : Engine)
  /-- R43: a sample of the TENSION channel. -/
  | tensionSample (code : BitVec 12)
  /-- R43: a sample of the GROUT channel. -/
  | groutSample (code : BitVec 12)
  /-- R43: a sample of the JACK channel. -/
  | jackSample (code : BitVec 12)
  /-- R48: an encoder's phases are seen at a new pair. -/
  | countStep (enc : Encoder) (pair : PhasePair)
  /-- R55, R161: a lift-off capture reaches the stress engine. -/
  | liftOffCapture
  /-- R53: a rising edge on the stroke input. -/
  | strokeEdge
  /-- R54, R120: an accepted stroke reaches the grout engine. -/
  | stroke
  /-- R79: the STALENESS mark of a panel expires. -/
  | stalenessExpiry (panel : Nat)
  /-- R110: the EXPIRY mark of a batch expires. -/
  | batchExpiry (id : Nat)
  | jamExpiry
  | coldJointExpiry
  | refusalExpiry
  | creepExpiry
  | holdEndExpiry
  | seatExpiry
  | suspensionExpiry
  /-- R80, R145: a panel change reaches the stress engine. -/
  | panelChangeDelivery
  /-- R171: the append in flight completes, with what the array reads back. -/
  | appendCompletion (run : AppendRun)
  /-- R27: 1/1024 s passes at the clock. -/
  | siteClockTick
  /-- R53: one real-time millisecond passes at the stroke timer. -/
  | strokeTimerTick
  /-- R69: a dither period of an output begins. -/
  | valvePeriodStart (v : Valve)
  /-- R184: the scan, the fix-up and the recomputation finish. -/
  | startUpScanDone (run : ScanRun)
  /-- R184: a submission whose code is not in the catalogue. -/
  | unknownRequestSubmission (p : PortNo) (code : Byte) (form : List Byte)
  /-- R1: the main supply fails, after so many programmings of an append in flight. -/
  | powerLoss (phases : Nat) (run : AppendRun)
  /-- R28: the backup-supplied domain loses all supply. -/
  | clockDomainSupplyLoss
  deriving DecidableEq, Repr

end Sys2Proof
end

