-- ==== Sys2Proof/Decode.lean ====
section
/-! DEFINITION. No row of the command table gives bits: no word spells a command (log entry 2). -/

namespace Sys2Proof

/-- The command a word spells by the table's bits: none, since no row gives any. -/
def decodeTableWord (_nbits _w : Nat) : Option Instr := none

end Sys2Proof
end

