-- ==== Sys2Proof/Config.lean ====
section
/-! DEFINITION. What the manual fixes for the part, and the free values: opaque constants for the
values the manual leaves open, which no proof can see. -/

namespace Sys2Proof.Config

/-- The last site time: 4,294,967,295 s with fraction 1023 (R27). -/
def maxTime : SiteTime := 4294967295 * 1024 + 1023

/-- The journal array holds this many bytes (R168). -/
def arraySize : Nat := 262144

/-- The largest number of anchor records (R1). -/
def maxRecords : Nat := 512

/-- Room a certificate append needs at START_TEST (R170). -/
def certificateRoom : Nat := 727

/-- Room below which JOURNAL_LOW is raised (R170). -/
def lowRoom : Nat := 16384

/-- FREE VALUE: the byte that a read past the array's last offset gets (log entry 27,
DESIGN CHOICE: R168 gives no byte there). -/
opaque beyondArray : Nat → BitVec 8

/-- FREE VALUE: the byte of a right header at an offset 0..31, whose layout R168 does not give (log
entry 8). -/
opaque headerByte : Nat → BitVec 8

/-- FREE VALUE: whether 32 header bytes that read back otherwise than programmed still hold the format
marker and the capacity, as a later start-up asks (R168; log entry 8). -/
opaque headerHolds : List (BitVec 8) → Bool

/-- FREE VALUE: the byte sent for a figure that does not fit its one-byte field
(log entry 13, DESIGN CHOICE: the manual states no value there). -/
opaque outOfField8 : Int → BitVec 8

/-- FREE VALUE: the same for a two-byte field (log entry 13). -/
opaque outOfField16 : Int → BitVec 16

/-- FREE VALUE: the same for a four-byte field (log entry 13). -/
opaque outOfField32 : Int → BitVec 32

/-- FREE VALUE: the time, 0..65535, of a first reading whose time since test start is negative
(log entry 14, DESIGN CHOICE: R140 states none). -/
opaque earlyReading : Int → BitVec 16

/-- FREE VALUE: the displacement of a MARK or STEP_END reading of a step that a creep figure needs and
the log does not hold, possible only where due times were clamped at the last site time
(log entry 10, DESIGN CHOICE: R154 and R155 state none). -/
opaque missingReading : Nat → Int

end Sys2Proof.Config
end

