-- ==== Sys2Proof/Machine/Arith.lean ====
section
/-! DEFINITION. The part's arithmetic: the rounding rule of R41 and the durations of R36. -/

namespace Sys2Proof.Machine

/-- The quotient of two naturals rounded to the nearest, a half away from zero (R41). -/
def roundDivNat (a b : Nat) : Nat := (2 * a + b) / (2 * b)

/-- The quotient of an integer by a positive natural rounded to the nearest, a half away from zero
(R41). -/
def roundDiv (a : Int) (b : Nat) : Int :=
  if a < 0 then -(roundDivNat a.natAbs b : Int) else (roundDivNat a.natAbs b : Int)

/-- The quotient rounded up (R41, for the rules that say so). -/
def ceilDiv (a b : Nat) : Nat := (a + b - 1) / b

/-- The whole seconds of a site time (R29). -/
def secondsOf (t : SiteTime) : Nat := t / 1024

/-- The fraction of a site time (R27). -/
def fractionOf (t : SiteTime) : Nat := t % 1024

/-- A due time past the last site time is set to it (R36). -/
def clampTime (t : SiteTime) : SiteTime := min t Config.maxTime

/-- The due time some whole seconds after a site time (R36). -/
def afterSeconds (t : SiteTime) (n : Nat) : SiteTime := clampTime (t + n * 1024)

/-- Milliseconds as 1/1024 s (R36). -/
def millisToFractions (ms : Nat) : Nat := roundDivNat (ms * 1024) 1000

/-- The due time some milliseconds after a site time (R36). -/
def afterMillis (t : SiteTime) (ms : Nat) : SiteTime := clampTime (t + millisToFractions ms)

/-- A counter that stays at its top (R5, R49, R132, ...). -/
def satSucc (top n : Nat) : Nat := if n < top then n + 1 else n

/-- The first multiple of 16 at or above an offset (R171). -/
def align16 (n : Nat) : Nat := (n + 15) / 16 * 16

end Sys2Proof.Machine
end

