-- ==== Sys2Proof/Machine/State.lean ====
section
/-! DEFINITION. The state of the part: every piece of state the manual names, as plain data, with
the values after reset. The list with rules and reset values is INVENTORY.md, State. -/

namespace Sys2Proof.Machine

/-- Why the part's model stops: it has no reason to, since every command has an effect in every
state. -/
inductive Fault where
  deriving DecidableEq, Repr

/-- Why a command is refused. -/
inductive Refusal where
  /-- Raised by `exec` alone, for a command whose meaning is not written. Safe. -/
  | notModelled (mnemonic : String)
  deriving DecidableEq, Repr

/-! ## Anchors (chapter 01) -/

/-- An anchor position Ppp-Tt-Ss (R2). -/
structure Position where
  panel : Nat
  tier : Nat
  slot : Nat
  deriving DecidableEq, Repr

/-- The eleven life-cycle states (R9). -/
inductive AnchorState where
  | declared | placing | placed | grouting | grouted | short | testing | recording | locked
  | failed | abandoned
  deriving DecidableEq, Repr

/-- The design part (R3). -/
structure Design where
  workLoad : Nat
  tendonArea : Nat
  modulus : Nat
  freeLength : Nat
  bondLength : Nat
  tendonLength : Nat
  groutVolume : Nat
  profile : Nat
  lockRatio : Nat
  deriving DecidableEq, Repr

/-- The operation of a work part (R4). -/
inductive WorkOp where
  | place | groutPrimary | groutPost | test
  deriving DecidableEq, Repr

/-- The work part (R4). -/
structure Work where
  op : WorkOp
  ret : Option AnchorState
  start : Nat
  deriving DecidableEq, Repr

/-- The placement part (R5): placed length with placed time, jam count, placing aborts. -/
structure Placement where
  placed : Option (Int × Nat)
  jams : Nat
  aborts : Nat
  deriving DecidableEq, Repr

/-- How a grouting ended (R6). -/
inductive GroutOutcome where
  | complete | refusal | incomplete
  deriving DecidableEq, Repr

/-- The grout part (R6). -/
structure GroutPart where
  endTime : Option Nat
  primary : Option Nat
  post : Option Nat
  outcome : GroutOutcome
  postCount : Nat
  batchIds : List Nat
  extra : Nat
  unattributed : Nat
  deriving DecidableEq, Repr

/-- Results and abort codes, one list in the order of R7 (R186). -/
inductive TestCode where
  | accepted | lockoffDeviation | lockoffIncomplete | creepFail | lengthFail | lengthIndeterminate
  | abortedConsole | abortedTrip | abortedWall | abortedOverpressure | abortedOverrange
  | abortedEncoder | abortedStroke | abortedPower
  deriving DecidableEq, Repr

/-- The test part (R7). -/
structure TestPart where
  count : Nat
  last : TestCode
  creep : Option Int
  lApp : Option Nat
  residual : Option Nat
  index : Option Nat
  deriving DecidableEq, Repr

/-- An anchor record (section 1.2). -/
structure Anchor where
  pos : Position
  state : AnchorState
  design : Design
  interrupted : Bool
  work : Option Work
  placement : Option Placement
  grout : Option GroutPart
  test : Option TestPart
  deriving DecidableEq, Repr

/-- A filled pending-certificate slot (R15). -/
structure PendingCertificate where
  record : List Byte
  pos : Position
  testCount : Nat
  result : TestCode
  residual : Option Nat
  deriving DecidableEq, Repr

/-- The anchor register in ferroelectric memory (R1). -/
structure Register where
  marker : Bool
  records : List Anchor
  slot : Option PendingCertificate
  deriving DecidableEq, Repr

/-! ## Clock and marks (chapter 02) -/

/-- The backup-supplied domain (R27, R28). `supplied`: the domain has a supply, so it counts.
`stopped`: the count has reached its last value, and no SET_TIME has been taken since. -/
structure Clock where
  running : Bool
  time : SiteTime
  marker : Bool
  supplied : Bool
  stopped : Bool
  deriving DecidableEq, Repr

/-- The point of the hold that a CREEP mark belongs to (R133). -/
inductive CreepPoint where
  | base | extended
  deriving DecidableEq, Repr

/-- Owner, kind and subject together name a mark (R34). -/
inductive MarkName where
  | staleness (panel : Nat)
  | expiry (id : Nat)
  | jam
  | coldJoint
  | refusal
  | holdEnd (step : Nat)
  | seat (step : Nat)
  | creep (step : Nat) (point : CreepPoint)
  | suspension (step : Nat)
  deriving DecidableEq, Repr

/-- A mark: its due time with fraction, and its name (R34). -/
structure Mark where
  due : SiteTime
  name : MarkName
  deriving DecidableEq, Repr

/-! ## Measurement unit (chapter 03) -/

/-- A sample of a channel: code, pressure or tension, load (JACK only), over-range, arrival time
(R43). -/
structure Sample where
  code : Nat
  value : Nat
  load : Nat
  saturated : Bool
  time : SiteTime
  deriving DecidableEq, Repr

/-- One encoder: its counter, the last pair seen, its fault count (R48, R49). -/
structure EncoderState where
  count : BitVec 32
  pair : PhasePair
  faults : Nat
  deriving DecidableEq, Repr

/-- The measurement unit (R43..R56). -/
structure Meas where
  jack : Option Sample
  grout : Option Sample
  tension : Option Sample
  drum : EncoderState
  ram : EncoderState
  drumRef : BitVec 32
  ramStart : BitVec 32
  ramDatum : Option (BitVec 32)
  compare : Option Int
  strokeTimer : Option Nat
  lastInterval : Option Nat
  accepted : Nat
  bounce : Nat
  deriving DecidableEq, Repr

/-! ## Supply and outputs (chapter 04) -/

/-- Claim status (R59). -/
inductive ClaimStatus where
  | none | queued | granted
  deriving DecidableEq, Repr

/-- An engine's claim status with its granted flow (R59). -/
structure FlowState where
  status : ClaimStatus
  flow : Nat
  deriving DecidableEq, Repr

/-- A queued claim: its engine and demand (R59). -/
structure Claim where
  engine : Engine
  demand : Nat
  deriving DecidableEq, Repr

/-- The supply arbiter (R59). -/
structure Supply where
  winch : FlowState
  grout : FlowState
  stress : FlowState
  queue : List Claim
  latched : Bool
  lineAsserted : Bool
  deriving DecidableEq, Repr

/-- One valve output: set duty, driven duty (R68), and the dither frequency of the period it is in
(R69). -/
structure Output where
  set : Nat
  driven : Nat
  periodHz : Nat
  deriving DecidableEq, Repr

/-- The four valve outputs (R68). -/
structure Outputs where
  winch : Output
  pump : Output
  jackAdvance : Output
  jackRelease : Output
  deriving DecidableEq, Repr

/-! ## Panels and batches (chapters 05 and 07) -/

/-- Panel states (R74). -/
inductive PanelState where
  | clear | alert | action | stale
  deriving DecidableEq, Repr

/-- A panel record; its number is its place in the table (R74). -/
structure Panel where
  state : PanelState
  reading : Option (Int × Nat)
  lockedSum : Nat
  changes : Nat
  deriving DecidableEq, Repr

/-- A batch record (R106). -/
structure Batch where
  id : Nat
  mixTime : Nat
  ratio : Nat
  volume : Nat
  life : Nat
  expiry : Nat
  remaining : Nat
  deriving DecidableEq, Repr

/-! ## Winch engine (R92) -/

inductive WinchState where
  | idle | waitFlow | run | slow | stopped
  deriving DecidableEq, Repr

inductive StopReason where
  | jam | trip | encoder
  deriving DecidableEq, Repr

/-- The winch engine's state (R92). -/
structure Winch where
  state : WinchState
  reason : Option StopReason
  anchor : Option Position
  slowBoundary : Option Nat
  jamCount : Nat
  paid : Int
  tension : Nat
  jamTiming : Bool
  deriving DecidableEq, Repr

/-! ## Grout engine (R113) -/

inductive GroutState where
  | idle | waitBatch | waitFlow | pumping | refusalHold | paused
  deriving DecidableEq, Repr

inductive PauseReason where
  | batch | trip | overpressure
  deriving DecidableEq, Repr

inductive GroutMode where
  | primary | post
  deriving DecidableEq, Repr

/-- The grout engine's state (R113). -/
structure Grout where
  state : GroutState
  pause : Option PauseReason
  anchor : Option Position
  mode : Option GroutMode
  limit : Option Nat
  injected : Nat
  strokes : Nat
  unattributed : Nat
  batchIds : List Nat
  extra : Nat
  peak : Nat
  latest : Option (Nat × Bool)
  deriving DecidableEq, Repr

/-! ## Profiles, settings (R129, R195) -/

/-- Step roles (R129). -/
inductive StepRole where
  | none | datum | peak | ret
  deriving DecidableEq, Repr

/-- A step of a profile (R129). -/
structure Step where
  target : Nat
  hold : Nat
  creep : Bool
  ext : Nat
  role : StepRole
  deriving DecidableEq, Repr

/-- The 43 settings in id order (R195) and the four profiles. -/
structure Settings where
  jackFs : Nat
  groutFs : Nat
  ramArea : Nat
  efficiency : Nat
  tensionFs : Nat
  drumScale : Nat
  ramScale : Nat
  minStroke : Nat
  capacity : Nat
  winchDemand : Nat
  groutDemand : Nat
  stressDemand : Nat
  ditherHz : Nat
  panelCount : Nat
  alertLevel : Nat
  actionLevel : Nat
  stalePeriod : Nat
  imbalanceLimit : Nat
  suspensionLimit : Nat
  runDuty : Nat
  slowDuty : Nat
  slowZone : Nat
  jamTension : Nat
  jamTime : Nat
  curePeriod : Nat
  coldJointLimit : Nat
  refusalPressure : Nat
  refusalPeriod : Nat
  groutMax : Nat
  overfill : Nat
  postCap : Nat
  strokeVolume : Nat
  pumpDuty : Nat
  jackMax : Nat
  ramStroke : Nat
  approachBand : Nat
  makeUpBand : Nat
  rampDuty : Nat
  approachDuty : Nat
  seatTime : Nat
  liftTravel : Nat
  lockTolerance : Nat
  creepLimit : Nat
  profile1 : Option (List Step)
  profile2 : Option (List Step)
  profile3 : Option (List Step)
  profile4 : Option (List Step)
  deriving DecidableEq, Repr

/-- The default settings (R42, R58, R69, R73, R91, R112, R131), with no profile defined (R129). -/
def Settings.default : Settings where
  jackFs := 7000
  groutFs := 4000
  ramArea := 15000
  efficiency := 980
  tensionFs := 2000
  drumScale := 2000
  ramScale := 200
  minStroke := 250
  capacity := 60
  winchDemand := 25
  groutDemand := 30
  stressDemand := 15
  ditherHz := 200
  panelCount := 16
  alertLevel := 250
  actionLevel := 400
  stalePeriod := 900
  imbalanceLimit := 20000
  suspensionLimit := 1800
  runDuty := 800
  slowDuty := 300
  slowZone := 2000
  jamTension := 600
  jamTime := 1000
  curePeriod := 168
  coldJointLimit := 1200
  refusalPressure := 1500
  refusalPeriod := 300
  groutMax := 2000
  overfill := 1100
  postCap := 300
  strokeVolume := 25
  pumpDuty := 700
  jackMax := 6500
  ramStroke := 250
  approachBand := 50
  makeUpBand := 20
  rampDuty := 600
  approachDuty := 150
  seatTime := 5
  liftTravel := 50
  lockTolerance := 50
  creepLimit := 200
  profile1 := none
  profile2 := none
  profile3 := none
  profile4 := none

/-- The staging image with its holder port (R178). -/
structure Staging where
  holder : PortNo
  image : Settings
  deriving DecidableEq, Repr

/-! ## Stress engine (R132, R158) -/

inductive StressState where
  | idle | waitFlow | stepRamp | stepHold | suspended | lockRamp | seating | liftCheck
  | finalRelease | unloading
  deriving DecidableEq, Repr

inductive RampDir where
  | undecided | up | down
  deriving DecidableEq, Repr

/-- Resume kinds of a suspension (R132). -/
inductive ResumeKind where
  | ramp | nextStep | evaluate
  deriving DecidableEq, Repr

/-- The suspension record (R132, R146). -/
structure Suspension where
  load : Nat
  resume : ResumeKind
  deriving DecidableEq, Repr

/-- Reading kinds (R140). -/
inductive ReadingKind where
  | stepEnd | mark | lock | seat | lift
  deriving DecidableEq, Repr

/-- A reading (R140). -/
structure Reading where
  step : Nat
  kind : ReadingKind
  time : Nat
  load : Nat
  disp : Int
  deriving DecidableEq, Repr

/-- A creep list entry; alpha_ext is present when the step was extended (R132). -/
structure CreepEntry where
  step : Nat
  alpha : Int
  alphaExt : Option Int
  deriving DecidableEq, Repr

/-- The latest jack sample as the stress engine keeps it (R132). -/
structure JackView where
  pressure : Nat
  load : Nat
  saturated : Bool
  disp : Int
  travel : Int
  deriving DecidableEq, Repr

/-- The length figures formed at the free-length evaluation (R156). -/
structure LengthFigures where
  datumLoad : Int
  peakLoad : Int
  sPeak : Int
  sPerm : Int
  deltaP : Int
  deltaS : Int
  lApp : Nat
  deriving DecidableEq, Repr

/-- Lock-off holds (R158). -/
inductive LockHold where
  | none | trip | flow
  deriving DecidableEq, Repr

/-- The lock-off figures (R158). -/
structure LockOff where
  target : Option Int
  retries : Nat
  sLock : Option Int
  seatInserted : Bool
  sSeat : Option Int
  drawIn : Option Int
  point : Option Int
  residual : Option Nat
  notLifted : Bool
  hold : LockHold
  result : Option TestCode
  deriving DecidableEq, Repr

/-- The stress engine's state (R132), with the lock-off figures of R158. -/
structure Stress where
  state : StressState
  anchor : Option Position
  design : Option Design
  profileNo : Option Nat
  steps : List Step
  targets : List Nat
  pLock : Option Nat
  start : Option SiteTime
  step : Option Nat
  dir : RampDir
  holdStart : Option SiteTime
  extended : Bool
  makingUp : Bool
  suspension : Option Suspension
  log : List Reading
  creep : List CreepEntry
  creepFigure : Option Int
  lengths : Option LengthFigures
  makeUps : Nat
  suspensions : Nat
  accepted : Bool
  pendingEnd : Option TestCode
  tripWait : Bool
  latest : Option JackView
  lock : LockOff
  deriving DecidableEq, Repr

/-! ## Journal (chapter 10) -/

/-- The journal array's bytes as (offset, byte) pairs with offsets strictly rising and no 00h
byte: an unlisted offset reads 00h, the blank byte of R168. -/
abbrev Memory := List Host.Cell

/-- The header (R168), whose byte layout the manual does not give (log entry 8): all 00h; the bytes
that the journal writes, with the format marker and the capacity; or other bytes. -/
inductive Header where
  | absent | right
  | other (bytes : List Byte)
  deriving DecidableEq, Repr

/-- Journal states (R170). -/
inductive JournalState where
  | scanning | ready | appending | fault
  deriving DecidableEq, Repr

/-- Kinds of an index entry (R169). -/
inductive EntryKind where
  | certificate | settings | spoiled
  deriving DecidableEq, Repr

/-- Who asked for an append (R171). -/
inductive Asker where
  | register
  | commit (p : PortNo)
  deriving DecidableEq, Repr

/-- The append in flight (R171). -/
structure Append where
  kind : EntryKind
  record : List Byte
  asker : Asker
  deriving DecidableEq, Repr

/-- The journal (R168, R170). -/
structure Journal where
  array : Memory
  header : Header
  state : JournalState
  count : Nat
  appendPoint : Nat
  lastCert : Option Nat
  inFlight : Option Append
  deriving DecidableEq, Repr

/-! ## Link ports (chapter 11) -/

/-- Roles (R181). -/
inductive Role where
  | disabled | console | field | survey
  deriving DecidableEq, Repr

/-- Mailbox states (R183). -/
inductive MailState where
  | empty | busy | done
  deriving DecidableEq, Repr

/-- A link port: role, mailbox state, the 256 mailbox bytes, flags, mask and register cursor
(R181, R183, R189, R22). A cursor of `none` is "before first". -/
structure Port where
  role : Role
  mailState : MailState
  mem : List Byte
  flags : BitVec 16
  mask : BitVec 16
  cursor : Option Position
  deriving DecidableEq, Repr

/-- The four link ports. -/
structure Ports where
  lp0 : Port
  lp1 : Port
  lp2 : Port
  lp3 : Port
  deriving DecidableEq, Repr

/-! ## Events in flight between blocks -/

/-- An event sent by one block and not yet handled by another: claims and releases (R60, R63),
grants (R62), notices (R65, R66), captures (R55), strokes (R54) and panel changes (R80). The
model's own field (log entry 4). -/
inductive Delivery where
  | claim (e : Engine) (demand : Nat)
  | release (e : Engine)
  | grant (e : Engine)
  | tripNotice (e : Engine)
  | clearNotice (e : Engine)
  | capture (sample : Sample)
  | stroke (time : SiteTime) (interval : Option Nat)
  | panelChange (panel : Nat) (before after : PanelState)
  deriving DecidableEq, Repr

/-! ## The whole state -/

/-- The state of the part, and the queue of the commands that wait. -/
structure State where
  powered : Bool
  ready : Bool
  startCause : StartCause
  clock : Clock
  marks : List Mark
  meas : Meas
  supply : Supply
  outputs : Outputs
  register : Register
  panels : List Panel
  batches : List Batch
  winch : Winch
  grout : Grout
  stress : Stress
  journal : Journal
  settings : Settings
  staging : Option Staging
  ports : Ports
  deliveries : List Delivery
  pending : List Instr
  deriving DecidableEq, Repr

/-! ## Start-up values of the blocks -/

/-- The measurement unit at start-up, with the phase levels read (R56). -/
def Meas.atStartUp (drum ram : PhasePair) : Meas where
  jack := none
  grout := none
  tension := none
  drum := ⟨0, drum, 0⟩
  ram := ⟨0, ram, 0⟩
  drumRef := 0
  ramStart := 0
  ramDatum := none
  compare := none
  strokeTimer := none
  lastInterval := none
  accepted := 0
  bounce := 0

/-- No claim and no flow (R59). -/
def FlowState.idle : FlowState := ⟨.none, 0⟩

/-- The arbiter at start-up: the latch follows the trip line (R59, R67). -/
def Supply.atStartUp (tripLow : Bool) : Supply where
  winch := .idle
  grout := .idle
  stress := .idle
  queue := []
  latched := tripLow
  lineAsserted := tripLow

/-- An output at start-up: off (R70); its period runs at the default frequency (log entry 30). -/
def Output.atStartUp : Output := ⟨0, 0, 200⟩

/-- All outputs at start-up (R70). -/
def Outputs.atStartUp : Outputs := ⟨.atStartUp, .atStartUp, .atStartUp, .atStartUp⟩

/-- A panel at start-up (R83). -/
def Panel.atStartUp : Panel := ⟨.stale, none, 0, 0⟩

/-- The winch engine at start-up (R92). -/
def Winch.atStartUp : Winch where
  state := .idle
  reason := none
  anchor := none
  slowBoundary := none
  jamCount := 0
  paid := 0
  tension := 0
  jamTiming := false

/-- The grout engine at start-up (R113). -/
def Grout.atStartUp : Grout where
  state := .idle
  pause := none
  anchor := none
  mode := none
  limit := none
  injected := 0
  strokes := 0
  unattributed := 0
  batchIds := []
  extra := 0
  peak := 0
  latest := none

/-- The lock-off figures at start-up and at an accepted START_TEST (R158). -/
def LockOff.cleared : LockOff where
  target := none
  retries := 0
  sLock := none
  seatInserted := false
  sSeat := none
  drawIn := none
  point := none
  residual := none
  notLifted := false
  hold := .none
  result := none

/-- The stress engine at start-up (R132, R158). -/
def Stress.atStartUp : Stress where
  state := .idle
  anchor := none
  design := none
  profileNo := none
  steps := []
  targets := []
  pLock := none
  start := none
  step := none
  dir := .undecided
  holdStart := none
  extended := false
  makingUp := false
  suspension := none
  log := []
  creep := []
  creepFigure := none
  lengths := none
  makeUps := 0
  suspensions := 0
  accepted := false
  pendingEnd := none
  tripWait := false
  latest := none
  lock := .cleared

/-- The journal as a start-up leaves it before its scan is done: SCANNING over the array it has
(R174; log entry 7). -/
def Journal.atStartUp (array : Memory) (header : Header) : Journal where
  array := array
  header := header
  state := .scanning
  count := 0
  appendPoint := 32
  lastCert := none
  inFlight := none

/-- A mailbox at start-up: 256 bytes of 00h (R183). -/
def Port.blankMail : List Byte := List.replicate 256 0

/-- The mask at start-up enables codes 1, 2, 3, 4, 15 and 16 (R189). -/
def Port.startMask : BitVec 16 := 0xC00F

/-- The flags at start-up: STARTUP, and CLOCK_UNSET when the clock's check found it UNSET
(R189). -/
def Port.startFlags (unset : Bool) : BitVec 16 := if unset then 0xC000 else 0x8000

/-- A port at start-up, in the role its straps give (R181, R183, R189, R22). -/
def Port.atStartUp (role : Role) (unset : Bool) : Port where
  role := role
  mailState := .empty
  mem := Port.blankMail
  flags := if role = .disabled then 0 else Port.startFlags unset
  mask := if role = .disabled then 0 else Port.startMask
  cursor := none

/-- The part right after reset: a new part just started from power, UNSET, its journal scan not
yet done, its straps those of section 11.7, its trip line released (log entry 1). -/
def State.reset : State where
  powered := true
  ready := false
  startCause := .power
  clock := ⟨false, 0, false, true, false⟩
  marks := []
  meas := .atStartUp ⟨false, false⟩ ⟨false, false⟩
  supply := .atStartUp false
  outputs := .atStartUp
  register := ⟨true, [], none⟩
  panels := List.replicate 32 .atStartUp
  batches := []
  winch := .atStartUp
  grout := .atStartUp
  stress := .atStartUp
  journal := .atStartUp [] .absent
  settings := .default
  staging := none
  ports := ⟨.atStartUp .console true, .atStartUp .field true, .atStartUp .survey true,
    .atStartUp .disabled true⟩
  deliveries := []
  pending := []

end Sys2Proof.Machine
end

