-- ==== Sys2Proof/Machine/Flags.lean ====
section
/-! DEFINITION. The event flags of the ports and the attention lines (R189, R190, R191). -/

namespace Sys2Proof.Machine

/-- The sixteen events (R189). -/
inductive Event where
  | packTrip | channelTrip | encoderFault | journalFault | testSuspended | testEnd | recordStored
  | groutPaused | groutEnd | winchStopped | winchEnd | panelChange | batchGone | journalLow
  | clockUnset | startup
  deriving DecidableEq, Repr

/-- The event codes 1..16 (R189). -/
def Event.code : Event → Nat
  | .packTrip => 1 | .channelTrip => 2 | .encoderFault => 3 | .journalFault => 4
  | .testSuspended => 5 | .testEnd => 6 | .recordStored => 7 | .groutPaused => 8 | .groutEnd => 9
  | .winchStopped => 10 | .winchEnd => 11 | .panelChange => 12 | .batchGone => 13
  | .journalLow => 14 | .clockUnset => 15 | .startup => 16

/-- The set with one event: bit k - 1 stands for code k (R190). -/
def Event.bit (e : Event) : BitVec 16 := BitVec.twoPow 16 (e.code - 1)

/-- A port's flag becomes pending, if the port is enabled (R181, R189). -/
def Port.raise (e : Event) (p : Port) : Port :=
  { p with flags := if p.role = .disabled then p.flags else p.flags ||| e.bit }

/-- A raised event sets its flag at every enabled port (R189). -/
def Ports.raise (e : Event) (ps : Ports) : Ports :=
  ⟨ps.lp0.raise e, ps.lp1.raise e, ps.lp2.raise e, ps.lp3.raise e⟩

/-- An event is raised (R189). -/
def State.raise (e : Event) (s : State) : State := { s with ports := s.ports.raise e }

/-- Whether a flag of the port is both pending and enabled: the attention line is then pulled low
(R191); that of a DISABLED port never is (R181). -/
def Port.attentionLow (p : Port) : Bool := p.role != .disabled && p.flags &&& p.mask != 0

/-- The lowest code, from k up, whose bit is set; 0 when there is none. -/
def lowestCodeFrom (w : BitVec 16) : Nat → Nat → Nat
  | _, 0 => 0
  | k, n + 1 => if w.getLsbD (k - 1) then k else lowestCodeFrom w (k + 1) n

/-- The lowest code whose flag is pending and enabled, or 0 (R190). -/
def Port.lowestPending (p : Port) : Nat := lowestCodeFrom (p.flags &&& p.mask) 1 16

end Sys2Proof.Machine
end

