-- ==== Sys2Proof/Machine/Operands.lean ====
section
/-! DEFINITION. The operand forms of the requests: how the bytes of a submission are read, and how
the bytes of a reply or record are written (R186, R187, R195). -/

namespace Sys2Proof.Machine

/-! ## Reading bytes, least significant first (R186) -/

/-- The byte at an index, as a number. -/
def byteAt (bs : List Byte) (i : Nat) : Nat := (bs.getD i 0).toNat

/-- The two-byte number at an index. -/
def u16At (bs : List Byte) (i : Nat) : Nat := byteAt bs i + 256 * byteAt bs (i + 1)

/-- The four-byte number at an index. -/
def u32At (bs : List Byte) (i : Nat) : Nat := u16At bs i + 65536 * u16At bs (i + 2)

/-- The two-byte two's complement number at an index. -/
def s16At (bs : List Byte) (i : Nat) : Int :=
  if u16At bs i < 32768 then (u16At bs i : Int) else (u16At bs i : Int) - 65536

/-- The set of event codes at an index (R190). -/
def setAt (bs : List Byte) (i : Nat) : BitVec 16 := BitVec.ofNat 16 (u16At bs i)

/-- The position at an index: panel, tier, slot (R186). -/
def positionAt (bs : List Byte) (i : Nat) : Position :=
  ⟨byteAt bs i, byteAt bs (i + 1), byteAt bs (i + 2)⟩

/-! ## Writing bytes, least significant first (R186) -/

/-- The four bytes of a 32-bit word, least significant first. -/
def bytes32 (w : BitVec 32) : List Byte :=
  [w.extractLsb' 0 8, w.extractLsb' 8 8, w.extractLsb' 16 8, w.extractLsb' 24 8]

/-- The two bytes of a 16-bit word, least significant first. -/
def bytes16 (w : BitVec 16) : List Byte := [w.extractLsb' 0 8, w.extractLsb' 8 8]

/-- A one-byte figure; one that does not fit is a free value (log entry 13). -/
def enc8 (n : Nat) : List Byte :=
  [if n < 256 then BitVec.ofNat 8 n else Config.outOfField8 n]

/-- A two-byte figure; one that does not fit is a free value (log entry 13). -/
def enc16 (n : Nat) : List Byte :=
  bytes16 (if n < 65536 then BitVec.ofNat 16 n else Config.outOfField16 n)

/-- A four-byte figure; one that does not fit is a free value (log entry 13). -/
def enc32 (n : Nat) : List Byte :=
  bytes32 (if n < 4294967296 then BitVec.ofNat 32 n else Config.outOfField32 n)

/-- An integer sent in a two-byte field without sign (log entry 13). -/
def enc16u (i : Int) : List Byte :=
  bytes16 (if 0 ≤ i ∧ i < 65536 then BitVec.ofInt 16 i else Config.outOfField16 i)

/-- A signed two-byte figure in two's complement (R186; log entry 13). -/
def encS16 (i : Int) : List Byte :=
  bytes16 (if -32768 ≤ i ∧ i < 32768 then BitVec.ofInt 16 i else Config.outOfField16 i)

/-- A signed four-byte figure in two's complement (R186; log entry 13). -/
def encS32 (i : Int) : List Byte :=
  bytes32 (if -2147483648 ≤ i ∧ i < 2147483648 then BitVec.ofInt 32 i else Config.outOfField32 i)

/-- A flag sent in one byte: no 1, yes 2 (R186; log entry 16). -/
def encFlag (b : Bool) : List Byte := enc8 (if b then 2 else 1)

/-- A position, or 0 bytes for an absent one (R186). -/
def encPos (p : Option Position) : List Byte :=
  match p with
  | some p => enc8 p.panel ++ enc8 p.tier ++ enc8 p.slot
  | none => enc8 0 ++ enc8 0 ++ enc8 0

/-- A site time with fraction: seconds, then fraction (R186). -/
def encTime (t : SiteTime) : List Byte := enc32 (secondsOf t) ++ enc16 (fractionOf t)

/-- A bit of a presence or flag byte. -/
def bitIf (b : Bool) (k : Nat) : Nat := if b then 2 ^ k else 0

/-! ## Codes of named values: the place in the list that defines them (R186) -/

def AnchorState.code : AnchorState → Nat
  | .declared => 1 | .placing => 2 | .placed => 3 | .grouting => 4 | .grouted => 5 | .short => 6
  | .testing => 7 | .recording => 8 | .locked => 9 | .failed => 10 | .abandoned => 11

def WorkOp.code : WorkOp → Nat
  | .place => 1 | .groutPrimary => 2 | .groutPost => 3 | .test => 4

def GroutOutcome.code : GroutOutcome → Nat
  | .complete => 1 | .refusal => 2 | .incomplete => 3

def TestCode.code : TestCode → Nat
  | .accepted => 1 | .lockoffDeviation => 2 | .lockoffIncomplete => 3 | .creepFail => 4
  | .lengthFail => 5 | .lengthIndeterminate => 6 | .abortedConsole => 7 | .abortedTrip => 8
  | .abortedWall => 9 | .abortedOverpressure => 10 | .abortedOverrange => 11
  | .abortedEncoder => 12 | .abortedStroke => 13 | .abortedPower => 14

def WinchState.code : WinchState → Nat
  | .idle => 1 | .waitFlow => 2 | .run => 3 | .slow => 4 | .stopped => 5

def StopReason.code : StopReason → Nat
  | .jam => 1 | .trip => 2 | .encoder => 3

def GroutState.code : GroutState → Nat
  | .idle => 1 | .waitBatch => 2 | .waitFlow => 3 | .pumping => 4 | .refusalHold => 5 | .paused => 6

def PauseReason.code : PauseReason → Nat
  | .batch => 1 | .trip => 2 | .overpressure => 3

def GroutMode.code : GroutMode → Nat
  | .primary => 1 | .post => 2

def StressState.code : StressState → Nat
  | .idle => 1 | .waitFlow => 2 | .stepRamp => 3 | .stepHold => 4 | .suspended => 5
  | .lockRamp => 6 | .seating => 7 | .liftCheck => 8 | .finalRelease => 9 | .unloading => 10

def ResumeKind.code : ResumeKind → Nat
  | .ramp => 1 | .nextStep => 2 | .evaluate => 3

def StepRole.code : StepRole → Nat
  | .none => 1 | .datum => 2 | .peak => 3 | .ret => 4

def ReadingKind.code : ReadingKind → Nat
  | .stepEnd => 1 | .mark => 2 | .lock => 3 | .seat => 4 | .lift => 5

def LockHold.code : LockHold → Nat
  | .none => 1 | .trip => 2 | .flow => 3

def ClaimStatus.code : ClaimStatus → Nat
  | .none => 1 | .queued => 2 | .granted => 3

def PanelState.code : PanelState → Nat
  | .clear => 1 | .alert => 2 | .action => 3 | .stale => 4

/-- Mark kinds in the order of R34's table (R186). -/
def MarkName.code : MarkName → Nat
  | .staleness _ => 1 | .expiry _ => 2 | .jam => 3 | .coldJoint => 4 | .refusal => 5
  | .holdEnd _ => 6 | .seat _ => 7 | .creep _ _ => 8 | .suspension _ => 9

def JournalState.code : JournalState → Nat
  | .scanning => 1 | .ready => 2 | .appending => 3 | .fault => 4

def EntryKind.code : EntryKind → Nat
  | .certificate => 1 | .settings => 2 | .spoiled => 3

def MailState.code : MailState → Nat
  | .empty => 1 | .busy => 2 | .done => 3

def startCauseCode : StartCause → Nat
  | .power => 1 | .line => 2

/-- Engines in the order of R186: winch, grout, stress (log entry 32). -/
def engineCode : Engine → Nat
  | .winch => 1 | .grout => 2 | .stress => 3

/-- The status codes of R188. -/
inductive Status where
  | ok | okClamped | notReady | unknownRequest | badForm | role | noAnchor | duplicate
  | registerFull | outOfRange | wrongState | engineBusy | panelBusy | panelHeld | imbalance
  | groutYoung | noTime | noProfile | overCapacity | tripped | lineActive | journalBusy
  | journalFull | journalFault | queueFull | badMix | expired | limit | late | notIdle
  | stagingHeld | badProfile | badSetting | noRecord | corrupt
  deriving DecidableEq, Repr

/-- The values of R188. -/
def Status.code : Status → Byte
  | .ok => 0x00 | .okClamped => 0x01 | .notReady => 0x02 | .unknownRequest => 0x03
  | .badForm => 0x04 | .role => 0x05 | .noAnchor => 0x06 | .duplicate => 0x07
  | .registerFull => 0x08 | .outOfRange => 0x09 | .wrongState => 0x0A | .engineBusy => 0x0B
  | .panelBusy => 0x0C | .panelHeld => 0x0D | .imbalance => 0x0E | .groutYoung => 0x0F
  | .noTime => 0x10 | .noProfile => 0x11 | .overCapacity => 0x12 | .tripped => 0x13
  | .lineActive => 0x14 | .journalBusy => 0x15 | .journalFull => 0x16 | .journalFault => 0x17
  | .queueFull => 0x18 | .badMix => 0x19 | .expired => 0x1A | .limit => 0x1B | .late => 0x1C
  | .notIdle => 0x1D | .stagingHeld => 0x1E | .badProfile => 0x1F | .badSetting => 0x20
  | .noRecord => 0x21 | .corrupt => 0x22

/-- Outcomes of the readings of a POST_WALL, coded in the order of R76 (R187). -/
inductive ReadingOutcome where
  | taken | takenClamped | noPanel | ahead | old
  deriving DecidableEq, Repr

def ReadingOutcome.code : ReadingOutcome → Nat
  | .taken => 1 | .takenClamped => 2 | .noPanel => 3 | .ahead => 4 | .old => 5

/-! ## Positions (R2) -/

/-- A position is valid when its panel is 1..32, its tier 1..8 and its slot 1..4 (R2). -/
def Position.valid (p : Position) : Bool :=
  1 ≤ p.panel && p.panel ≤ 32 && 1 ≤ p.tier && p.tier ≤ 8 && 1 ≤ p.slot && p.slot ≤ 4

/-- The wall order of positions (R2). -/
def Position.lt (a b : Position) : Bool :=
  a.panel < b.panel ||
    (a.panel == b.panel && (a.tier < b.tier || (a.tier == b.tier && a.slot < b.slot)))

/-! ## Steps of a profile (R195) -/

/-- The seven bytes of a step: target, H, H_ext in units of 10 s, role and creep (R195). -/
def encStep (st : Step) : List Byte :=
  enc16 st.target ++ enc16 st.hold ++ enc16 (st.ext / 10) ++
    enc8 (st.role.code + (if st.creep then 128 else 0))

/-- The role with a code, if one has it (R129, R186). -/
def roleOfCode : Nat → Option StepRole
  | 1 => some .none | 2 => some .datum | 3 => some .peak | 4 => some .ret | _ => none

/-- The step at an index of a byte list; `none` where its role byte names no role. Bits 3..6 of
that byte are not read (log entry 17). -/
def stepAt (bs : List Byte) (i : Nat) : Option Step :=
  (roleOfCode (byteAt bs (i + 6) % 8)).map fun r =>
    ⟨u16At bs i, u16At bs (i + 2), 128 ≤ byteAt bs (i + 6), u16At bs (i + 4) * 10, r⟩

/-- So many steps from an index on. -/
def stepsAt (bs : List Byte) : Nat → Nat → List (Option Step)
  | _, 0 => []
  | i, n + 1 => stepAt bs i :: stepsAt bs (i + 7) n

end Sys2Proof.Machine
end

