-- ==== Sys2Proof/Machine/Ops.lean ====
section
/-! DEFINITION. The shared operations over the state: ports, deliveries, the mark list, the valve
outputs, the journal array's bytes, and the lists the blocks keep. -/

namespace Sys2Proof.Machine

/-! ## Power and time -/

/-- A part without main supply handles no event (R1). -/
def State.whenPowered (f : State → State) (s : State) : State := if s.powered then f s else s

/-- Now: the site time at the moment an event is handled (R29). -/
def State.now (s : State) : SiteTime := s.clock.time

/-- Now in whole seconds (R29). -/
def State.nowSeconds (s : State) : Nat := secondsOf s.clock.time

/-! ## Ports -/

/-- The port with a number. -/
def Ports.get (ps : Ports) : PortNo → Port
  | 0 => ps.lp0 | 1 => ps.lp1 | 2 => ps.lp2 | 3 => ps.lp3

/-- The ports with one of them replaced. -/
def Ports.put (ps : Ports) (x : Port) : PortNo → Ports
  | 0 => { ps with lp0 := x } | 1 => { ps with lp1 := x } | 2 => { ps with lp2 := x }
  | 3 => { ps with lp3 := x }

/-- One port changed. -/
def State.modifyPort (p : PortNo) (f : Port → Port) (s : State) : State :=
  { s with ports := s.ports.put (f (s.ports.get p)) p }

/-! ## Deliveries between blocks (log entry 4) -/

/-- A block sends an event to another. -/
def State.send (d : Delivery) (s : State) : State := { s with deliveries := s.deliveries ++ [d] }

/-- The deliveries that keep their order with those of an engine's claim or release: the claims and
releases of that engine. -/
def Delivery.fromEngine (e : Engine) : Delivery → Bool
  | .claim f _ => f == e
  | .release f => f == e
  | _ => false

/-- The deliveries that keep their order with those the arbiter sends an engine: the grants and
notices of that engine. -/
def Delivery.toEngine (e : Engine) : Delivery → Bool
  | .grant f => f == e
  | .tripNotice f => f == e
  | .clearNotice f => f == e
  | _ => false

/-- A grant, to whatever engine: grants are delivered in the order in which they were made (R62). -/
def Delivery.isGrant : Delivery → Bool
  | .grant _ => true
  | _ => false

/-- The oldest delivery among some, with the others. -/
def takeFirst (among : Delivery → Bool) : List Delivery → Option (Delivery × List Delivery)
  | [] => none
  | d :: ds => if among d then some (d, ds) else (takeFirst among ds).map fun r => (r.1, d :: r.2)

/-- Handle the oldest delivery among those that keep their order, when it is of the kind a command
stands for; otherwise nothing happens (log entries 4, 6). -/
def State.deliver {α : Type} (among : Delivery → Bool) (f : Delivery → Option α)
    (handle : α → State → State) (s : State) : State :=
  match takeFirst among s.deliveries with
  | some (d, rest) =>
    match f d with
    | some x => handle x { s with deliveries := rest }
    | none => s
  | none => s

/-- Handle the oldest delivery of one kind. -/
def State.deliverKind {α : Type} (f : Delivery → Option α) (handle : α → State → State)
    (s : State) : State :=
  s.deliver (fun d => (f d).isSome) f handle

/-! ## The mark list (R34..R39) -/

/-- A mark goes behind every mark due earlier or at the same time (R37). -/
def placeMark (m : Mark) : List Mark → List Mark
  | [] => [m]
  | x :: rest => if x.due ≤ m.due then x :: placeMark m rest else m :: x :: rest

/-- The list without the mark of a name (R38). -/
def dropMark (n : MarkName) (ms : List Mark) : List Mark := ms.filter fun m => m.name != n

/-- An owner inserts a mark, or replaces the one of that name (R37). -/
def State.insertMark (n : MarkName) (due : SiteTime) (s : State) : State :=
  { s with marks := placeMark ⟨due, n⟩ (dropMark n s.marks) }

/-- An owner removes a mark by its name (R38). -/
def State.removeMark (n : MarkName) (s : State) : State := { s with marks := dropMark n s.marks }

/-- Whether a mark of a name is in the list. -/
def State.hasMark (n : MarkName) (s : State) : Bool := s.marks.any fun m => m.name == n

/-- The marks owned by the stress engine (R34). -/
def MarkName.ofStress : MarkName → Bool
  | .holdEnd _ => true | .seat _ => true | .creep _ _ => true | .suspension _ => true
  | _ => false

/-- The stress engine removes every mark it holds (R148). -/
def State.removeStressMarks (s : State) : State :=
  { s with marks := s.marks.filter fun m => !m.name.ofStress }

/-- No mark is due: the list is empty, or site time has not reached the head's due time (R39). -/
def State.noneDue (s : State) : Bool :=
  match s.marks with
  | [] => true
  | m :: _ => s.now < m.due

/-! ## Valve outputs (R68, R70) -/

/-- The engine that owns an output (R68). -/
def valveOwner : Valve → Engine
  | .winch => .winch | .pump => .grout | .jackAdvance => .stress | .jackRelease => .stress

/-- One output. -/
def Outputs.get (os : Outputs) : Valve → Output
  | .winch => os.winch | .pump => os.pump | .jackAdvance => os.jackAdvance
  | .jackRelease => os.jackRelease

/-- A set duty is written: 0 becomes the driven duty at once, a duty above 0 waits for the next
period (R69). -/
def Output.write (d : Nat) (o : Output) : Output :=
  { o with set := d, driven := if d = 0 then 0 else o.driven }

/-- An output forced or interlocked to 0 (R68, R70). -/
def Output.off (o : Output) : Output := { o with set := 0, driven := 0 }

/-- A duty written to an output, with the interlock of the two jack outputs (R68). -/
def Outputs.write (v : Valve) (d : Nat) (os : Outputs) : Outputs :=
  match v with
  | .winch => { os with winch := os.winch.write d }
  | .pump => { os with pump := os.pump.write d }
  | .jackAdvance =>
    { os with
      jackAdvance := os.jackAdvance.write d
      jackRelease :=
        if 0 < d ∧ 0 < os.jackRelease.set then os.jackRelease.off else os.jackRelease }
  | .jackRelease =>
    { os with
      jackRelease := os.jackRelease.write d
      jackAdvance :=
        if 0 < d ∧ 0 < os.jackAdvance.set then os.jackAdvance.off else os.jackAdvance }

/-- An engine writes a duty: refused under a latched trip and from an engine that does not own the
output; above 1000 it is written as 1000 (R68, R70). -/
def State.writeDuty (who : Engine) (v : Valve) (d : Nat) (s : State) : State :=
  { s with
    outputs :=
      if s.supply.latched ∨ valveOwner v ≠ who then s.outputs else s.outputs.write v (min d 1000) }

/-- Every output forced to 0 (R70). -/
def Outputs.off (os : Outputs) : Outputs :=
  ⟨os.winch.off, os.pump.off, os.jackAdvance.off, os.jackRelease.off⟩

/-- The length of a period in microseconds at a dither frequency (R69). -/
def periodMicros (hz : Nat) : Nat := roundDivNat 1000000 hz

/-- The on-time of a period in microseconds (R69). -/
def onTimeMicros (hz driven : Nat) : Nat := roundDivNat (1000000 * driven) (hz * 1000)

/-! ## The bytes of the journal array (R168) -/

/-- The byte at an offset; a blank byte reads 00h (R168). -/
def Memory.read (m : Memory) (a : Nat) : Byte :=
  match m with
  | [] => 0
  | (b, v) :: rest => if b = a then v else Memory.read rest a

/-- The array with one byte programmed, in canonical form. -/
def Memory.write (m : Memory) (a : Nat) (v : Byte) : Memory :=
  match m with
  | [] => if v = 0 then [] else [(a, v)]
  | (b, w) :: rest =>
    if a < b then (if v = 0 then (b, w) :: rest else (a, v) :: (b, w) :: rest)
    else if a = b then (if v = 0 then rest else (a, v) :: rest)
    else (b, w) :: Memory.write rest a v

/-- The array with bytes programmed from an offset on. -/
def Memory.writeBytes (m : Memory) (a : Nat) : List Byte → Memory
  | [] => m
  | v :: vs => Memory.writeBytes (Memory.write m a v) (a + 1) vs

/-- So many bytes from an offset on. -/
def Memory.readBytes (m : Memory) (a : Nat) : Nat → List Byte
  | 0 => []
  | n + 1 => Memory.read m a :: Memory.readBytes m (a + 1) n

/-- Offsets strictly rising from a bound, below the array's size, and no 00h listed. -/
def Memory.wfFrom (lo : Nat) : Memory → Bool
  | [] => true
  | (a, v) :: rest => lo ≤ a && a < Config.arraySize && v != 0 && Memory.wfFrom (a + 1) rest

/-- The canonical form of the array. -/
def Memory.wf (m : Memory) : Bool := Memory.wfFrom 0 m

/-- The XOR of a range (R169). -/
def xorBytes : List Byte → Byte
  | [] => 0
  | b :: bs => b ^^^ xorBytes bs

/-- A list cut or filled with 00h to a length: what a programming of that length left. -/
def fitBytes (n : Nat) (bs : List Byte) : List Byte := (bs ++ List.replicate n 0).take n

/-! ## The anchor register (R1, R10) -/

/-- The record with a position. -/
def Register.find (r : Register) (p : Position) : Option Anchor :=
  r.records.find? fun a => a.pos == p

/-- A record is rewritten where it stands (R1). -/
def Register.modify (p : Position) (f : Anchor → Anchor) (r : Register) : Register :=
  { r with records := r.records.map fun a => if a.pos = p then f a else a }

/-- A record is placed at its place in position order (R1). -/
def insertRecord (a : Anchor) : List Anchor → List Anchor
  | [] => [a]
  | x :: rest => if a.pos.lt x.pos then a :: x :: rest else x :: insertRecord a rest

/-- A record is removed and the gap closed (R1). -/
def Register.remove (p : Position) (r : Register) : Register :=
  { r with records := r.records.filter fun a => a.pos != p }

/-- The register changed. -/
def State.modifyAnchor (p : Position) (f : Anchor → Anchor) (s : State) : State :=
  { s with register := s.register.modify p f }

/-- Whether the register holds an anchor in a state in a panel (R86). -/
def Register.panelHolds (r : Register) (panel : Nat) (st : AnchorState) : Bool :=
  r.records.any fun a => a.pos.panel == panel && a.state == st

/-- The start transition: state, work part, interrupted flag cleared (R11). -/
def Anchor.startWork (st : AnchorState) (op : WorkOp) (ret : Option AnchorState) (start : Nat)
    (a : Anchor) : Anchor :=
  { a with state := st, work := some ⟨op, ret, start⟩, interrupted := false }

/-! ## The journal's room (R170) -/

/-- The offset of index entry k (R168). -/
def entryOffset (k : Nat) : Nat := 262136 - 8 * k

/-- The lowest index entry offset (R170). -/
def Journal.lowestEntry (j : Journal) : Nat :=
  if j.count = 0 then Config.arraySize else entryOffset (j.count - 1)

/-- Room: the lowest index entry offset less the append point (R170). -/
def Journal.room (j : Journal) : Nat := j.lowestEntry - j.appendPoint

/-- An append is asked: in READY it is taken (R171; log entry 28). -/
def Journal.ask (kind : EntryKind) (record : List Byte) (asker : Asker) (j : Journal) : Journal :=
  if j.state = .ready then { j with state := .appending, inFlight := some ⟨kind, record, asker⟩ }
  else j

/-- Whether a settings append is in flight (R180). -/
def Journal.settingsInFlight (j : Journal) : Bool :=
  match j.inFlight with
  | some a => a.kind == .settings
  | none => false

/-! ## Engines idle (R31, R180) -/

/-- Whether all three engines are IDLE. -/
def State.enginesIdle (s : State) : Bool :=
  s.winch.state == .idle && s.grout.state == .idle && s.stress.state == .idle

end Sys2Proof.Machine
end

