-- ==== Sys2Proof/Machine/Mailbox.lean ====
section
/-! DEFINITION. The mailbox of a port, and what every submission has in common: storing, the port's
own checks, the decision of the owning block, the reply (R182, R183, R184, R185). -/

namespace Sys2Proof.Machine

/-! ## Mailbox bytes (R182, R183) -/

/-- Bytes written into a mailbox from an offset on; a byte at 80h or above is refused and not
stored (R182). -/
def Port.store (off : Nat) (bs : List Byte) (p : Port) : Port :=
  { p with mem := p.mem.take off ++ bs.take (128 - off) ++ p.mem.drop (off + (bs.take (128 - off)).length) }

/-- The mailbox's byte at an offset; past FFh it is 00h (R182). -/
def Port.readByte (p : Port) (off : Nat) : Byte := p.mem.getD off 0

/-- The parameter length of the request as it stands (R183). -/
def Port.formLength (p : Port) : Nat := byteAt p.mem 1

/-- The parameters of the request as it stands: from 02h, for the parameter length (R183). -/
def Port.params (p : Port) : List Byte := (p.mem.drop 2).take p.formLength

/-- A submission is taken: the mailbox is BUSY and 81h..FFh are 00h (R183). -/
def Port.accept (p : Port) : Port :=
  { p with
    mailState := .busy
    mem := p.mem.take 128 ++ BitVec.ofNat 8 MailState.busy.code :: List.replicate 127 0 }

/-- The reply: DONE, the status, the reply length and the data (R183). -/
def Port.answer (st : Status) (data : List Byte) (p : Port) : Port :=
  { p with
    mailState := .done
    mem := p.mem.take 128 ++ BitVec.ofNat 8 MailState.done.code :: st.code ::
      BitVec.ofNat 8 data.length :: fitBytes 125 data }

/-! ## Acknowledgement and read transfers (R181, R182) -/

/-- The target address of a port (R181). -/
def portAddress (p : PortNo) : Nat := 0x38 + p.val

/-- Whether an address is acknowledged on a port's wires: the part runs, the address is the port's
own, and the port is enabled (R181). -/
def State.acksAddress (s : State) (p : PortNo) (address : Nat) : Bool :=
  s.powered && (s.ports.get p).role != .disabled && address == portAddress p

/-- Whether an enabled port acknowledges an offset byte: always but for 00h..7Fh in BUSY (R182). -/
def State.acksOffset (s : State) (p : PortNo) (off : Nat) : Bool :=
  s.acksAddress p (portAddress p) && ((s.ports.get p).mailState != .busy || 128 ≤ off)

/-- Whether a data byte for an offset is acknowledged, its offset byte having been so: not in the
reply area and not beyond FFh (R182). -/
def State.acksData (s : State) (p : PortNo) (start off : Nat) : Bool :=
  s.acksOffset p start && off < 128

/-- What a read transfer of so many bytes gets from an offset at an address on a port's wires;
`none`: it is not acknowledged (R181, R182; log entry 34). -/
def State.readTransfer (s : State) (p : PortNo) (address off n : Nat) : Option (List Byte) :=
  if s.acksAddress p address && s.acksOffset p off then
    some ((List.range' off n).map (s.ports.get p).readByte)
  else none

/-- Whether a port acknowledges a request: its offset byte is 00h (R181, R182). -/
def State.portOpen (s : State) (p : PortNo) : Bool := s.acksOffset p 0

/-- A write transfer's bytes are stored where the port acknowledges the offset byte; a byte at 80h
and above is refused (R182). -/
def State.storeAt (p : PortNo) (off : Nat) (bs : List Byte) (s : State) : State :=
  if s.acksOffset p off then s.modifyPort p (Port.store off bs) else s

/-- The state with a submission taken: its bytes stored, its mailbox BUSY (R183). -/
def State.taken (p : PortNo) (code : Byte) (form : List Byte) (s : State) : State :=
  s.modifyPort p fun q => (q.store 0 (code :: form)).accept

/-- The state with a port's request answered (R183). -/
def State.answer (p : PortNo) (st : Status) (data : List Byte) (s : State) : State :=
  s.modifyPort p (Port.answer st data)

/-! ## Deciding a request -/

/-- What the owning block decides: a reply with the state it leaves, or a mailbox left BUSY
(COMMIT_SETTINGS). -/
inductive Decision where
  | reply (st : Status) (data : List Byte) (s : State)
  | busy (s : State)

/-- A refusal changes nothing. -/
def refuse (st : Status) (s : State) : Decision := .reply st [] s

/-- A refusal that carries data. -/
def refuseWith (st : Status) (data : List Byte) (s : State) : Decision := .reply st data s

/-- Which roles may make a request (R185). -/
inductive Access where
  | console | field | survey | fieldOrConsole | every
  deriving DecidableEq, Repr

/-- Whether a role may make a request of an access (R185). -/
def Access.allows : Access → Role → Bool
  | .console, .console => true
  | .field, .field => true
  | .survey, .survey => true
  | .fieldOrConsole, .field => true
  | .fieldOrConsole, .console => true
  | .every, .disabled => false
  | .every, _ => true
  | _, _ => false

/-- The port's own checks of a request in the catalogue, in the order of R184: the refusal of the
first that fails. `held`: DECLARE, START_WINCH and START_GROUT, held off while a settings append is
in flight. -/
def portRefusal (s : State) (p : PortNo) (acc : Access) (held : Bool) : Option Status :=
  if !s.ready then some .notReady
  else if 126 < (s.ports.get p).formLength then some .badForm
  else if !acc.allows (s.ports.get p).role then some .role
  else if held && s.journal.settingsInFlight then some .notReady
  else none

/-- A decision becomes the port's reply, in the same change (R183). -/
def Decision.finish (p : PortNo) : Decision → Host.Outcome State Fault Refusal
  | .reply st data s => .next (s.answer p st data)
  | .busy s => .next s

/-- The parameters that a submission's request carries, read from the request area as it stands at
the stop (R183). -/
def State.requestParams (s : State) (p : PortNo) (code : Byte) (form : List Byte) : List Byte :=
  ((s.taken p code form).ports.get p).params

/-- A submission of a request: stored where acknowledged, taken when it stores at least two bytes,
checked by the port and decided by its owner (R182, R183, R184). -/
def submit (p : PortNo) (code : Byte) (form : List Byte) (acc : Access) (held : Bool)
    (decide : List Byte → State → Decision) (s : State) : Host.Outcome State Fault Refusal :=
  if !s.portOpen p then .next s
  else if form.isEmpty then .next (s.storeAt p 0 [code])
  else
    match portRefusal (s.taken p code form) p acc held with
    | some st => .next ((s.taken p code form).answer p st [])
    | none => (decide (s.requestParams p code form) (s.taken p code form)).finish p

/-- A submission whose code is not in the catalogue (R184). -/
def submitUnknown (p : PortNo) (code : Byte) (form : List Byte) (s : State) :
    Host.Outcome State Fault Refusal :=
  if !s.portOpen p then .next s
  else if form.isEmpty then .next (s.storeAt p 0 [code])
  else .next <| (s.taken p code form).answer p
    (if !s.ready then .notReady
     else if 126 < ((s.taken p code form).ports.get p).formLength then .badForm
     else .unknownRequest) []

end Sys2Proof.Machine
end

