-- ==== Sys2Proof/Machine/Supply.lean ====
section
/-! DEFINITION. The supply arbiter and the output stage (chapter 04): claims, grants, releases, the
trip latch, CLEAR_TRIP, the dither periods. -/

namespace Sys2Proof.Machine

/-! ## The arbiter's state (R59) -/

/-- An engine's claim status and granted flow. -/
def Supply.flowOf (sup : Supply) : Engine → FlowState
  | .winch => sup.winch | .grout => sup.grout | .stress => sup.stress

/-- The arbiter with an engine's status and flow replaced. -/
def Supply.put (e : Engine) (f : FlowState) (sup : Supply) : Supply :=
  match e with
  | .winch => { sup with winch := f }
  | .grout => { sup with grout := f }
  | .stress => { sup with stress := f }

/-- The sum of the granted flows. -/
def Supply.granted (sup : Supply) : Nat := sup.winch.flow + sup.grout.flow + sup.stress.flow

/-- The free flow: the capacity less the granted flows (R59). -/
def Supply.free (capacity : Nat) (sup : Supply) : Nat := capacity - sup.granted

/-- An engine's demand in the settings in force (R58). -/
def Settings.demand (c : Settings) : Engine → Nat
  | .winch => c.winchDemand | .grout => c.groutDemand | .stress => c.stressDemand

/-- STRESS is the highest priority, GROUT the next, WINCH the lowest (R61). -/
def priority : Engine → Nat
  | .winch => 1 | .grout => 2 | .stress => 3

/-- A claim joins behind every claim of equal or higher priority (R61). -/
def queueClaim (c : Claim) : List Claim → List Claim
  | [] => [c]
  | x :: rest =>
    if priority x.engine < priority c.engine then c :: x :: rest else x :: queueClaim c rest

/-- A grant pass: the claims granted from the head while the head fits, and those that stay
(R62). -/
def grantPass (free : Nat) : List Claim → List Claim × List Claim
  | [] => ([], [])
  | c :: rest =>
    if c.demand ≤ free then
      (c :: (grantPass (free - c.demand) rest).1, (grantPass (free - c.demand) rest).2)
    else ([], c :: rest)

/-- An engine's claim is granted its demand (R62). -/
def Supply.grantOne (sup : Supply) (c : Claim) : Supply := sup.put c.engine ⟨.granted, c.demand⟩

/-- The arbiter after a grant pass (R62). -/
def Supply.pass (capacity : Nat) (sup : Supply) : Supply :=
  (grantPass (sup.free capacity) sup.queue).1.foldl Supply.grantOne
    { sup with queue := (grantPass (sup.free capacity) sup.queue).2 }

/-- The arbiter makes a grant pass and sends each grant, in the order made (R62). -/
def State.grantPass (s : State) : State :=
  { s with
    supply := s.supply.pass s.settings.capacity
    deliveries := s.deliveries ++
      (Machine.grantPass (s.supply.free s.settings.capacity) s.supply.queue).1.map
        fun c => .grant c.engine }

/-! ## Claims and releases (R60, R63) -/

/-- An engine sends a claim that carries its demand (R60). -/
def State.claimFlow (e : Engine) (s : State) : State := s.send (.claim e (s.settings.demand e))

/-- An engine sends a release (R63). -/
def State.releaseFlow (e : Engine) (s : State) : State := s.send (.release e)

/-- A claim joins the queue and a grant pass follows, in the same change (R60). -/
def State.acceptClaim (e : Engine) (demand : Nat) (s : State) : State :=
  State.grantPass
    { s with
      supply := { s.supply.put e ⟨.queued, 0⟩ with
        queue := queueClaim ⟨e, demand⟩ s.supply.queue } }

/-- The arbiter handles a release by the engine's status as it stands (R63). -/
def State.acceptRelease (e : Engine) (s : State) : State :=
  match (s.supply.flowOf e).status with
  | .none => s
  | .granted => State.grantPass { s with supply := s.supply.put e .idle }
  | .queued =>
    State.grantPass
      { s with
        supply := { s.supply.put e .idle with
          queue := s.supply.queue.filter fun c => c.engine != e } }

/-- RELEASE (R63). -/
def onRelease (e : Engine) (s : State) : Host.Outcome State Fault Refusal :=
  .next <| s.whenPowered fun s =>
    s.deliver (Delivery.fromEngine e) (fun d => if d = .release e then some () else none)
      fun _ t => t.acceptRelease e

/-! ## The trip latch (R64, R65, R66) -/

/-- The arbiter as a trip latches: every grant withdrawn, the queue empty (R65). -/
def Supply.trip (sup : Supply) : Supply :=
  { sup with
    winch := .idle, grout := .idle, stress := .idle, queue := [], latched := true,
    lineAsserted := true }

/-- The trip latches: the arbiter's change, the outputs forced to 0, every engine told, PACK_TRIP
raised (R65). -/
def State.latchTrip (s : State) : State :=
  State.raise .packTrip
    { s with
      supply := s.supply.trip
      outputs := s.outputs.off
      deliveries := s.deliveries ++ [.tripNotice .winch, .tripNotice .grout, .tripNotice .stress] }

/-- TRIP_LINE_ASSERTION: with the latch LATCHED only the level changes (R64), otherwise the trip
latches (R65). -/
def onTripLineAssertion (s : State) : Host.Outcome State Fault Refusal :=
  .next <| s.whenPowered fun s =>
    if s.supply.latched then { s with supply := { s.supply with lineAsserted := true } }
    else s.latchTrip

/-- TRIP_LINE_RELEASE: the level changes and the latch stays (R64). -/
def onTripLineRelease (s : State) : Host.Outcome State Fault Refusal :=
  .next <| s.whenPowered fun s => { s with supply := { s.supply with lineAsserted := false } }

/-- The latch is cleared and every engine told (R66). -/
def State.clearLatch (s : State) : State :=
  { s with
    supply := { s.supply with latched := false }
    deliveries := s.deliveries ++ [.clearNotice .winch, .clearNotice .grout, .clearNotice .stress] }

/-- CLEAR_TRIP as the arbiter decides it (R66). -/
def decideClearTrip (ps : List Byte) (s : State) : Decision :=
  if ps.length ≠ 0 then refuse .badForm s
  else if s.supply.lineAsserted then refuse .lineActive s
  else if s.supply.latched then .reply .ok [] s.clearLatch
  else .reply .ok [] s

/-- CLEAR_TRIP (R66). -/
def onClearTrip (p : PortNo) (form : List Byte) (s : State) : Host.Outcome State Fault Refusal :=
  submit p 0x28 form .console false decideClearTrip s

/-! ## Dither periods (R69) -/

/-- An output at the start of a period: the set duty becomes the driven duty, and the period runs
at the frequency in force (R69). -/
def Output.period (hz : Nat) (o : Output) : Output := { o with driven := o.set, periodHz := hz }

/-- One output changed. -/
def Outputs.modify (v : Valve) (f : Output → Output) (os : Outputs) : Outputs :=
  match v with
  | .winch => { os with winch := f os.winch }
  | .pump => { os with pump := f os.pump }
  | .jackAdvance => { os with jackAdvance := f os.jackAdvance }
  | .jackRelease => { os with jackRelease := f os.jackRelease }

/-- VALVE_PERIOD_START (R69). -/
def onValvePeriodStart (v : Valve) (s : State) : Host.Outcome State Fault Refusal :=
  .next <| s.whenPowered fun s =>
    { s with outputs := s.outputs.modify v (Output.period s.settings.ditherHz) }

end Sys2Proof.Machine
end

