-- ==== Sys2Proof/Machine/Batch.lean ====
section
/-! DEFINITION. The batch queue's own operations (R106, R107, R110, R120). -/

namespace Sys2Proof.Machine

/-- What charging a volume to the queue comes to (R120): the queue after it, the ids that gave
some of it, the ids used up, and the part left uncharged. -/
structure Charge where
  queue : List Batch
  gave : List Nat
  used : List Nat
  left : Nat
  deriving DecidableEq, Repr

/-- A volume charged to the queue, head first: a batch gives the smaller of its remaining volume
and the uncharged part, and leaves when its remaining volume reaches 0 (R120 step 2). -/
def chargeQueue : Nat → List Batch → Charge
  | v, [] => ⟨[], [], [], v⟩
  | v, b :: rest =>
    if v = 0 then ⟨b :: rest, [], [], 0⟩
    else if b.remaining ≤ v then
      let c := chargeQueue (v - b.remaining) rest
      ⟨c.queue, b.id :: c.gave, b.id :: c.used, c.left⟩
    else ⟨{ b with remaining := b.remaining - v } :: rest, [b.id], [], 0⟩

/-- A batch that has left the queue: its EXPIRY mark removed, BATCH_GONE raised (R110). -/
def State.batchGone (id : Nat) (s : State) : State := State.raise .batchGone (s.removeMark (.expiry id))

/-- A batch is taken out of the queue wherever it stands (R107, R110). -/
def State.takeBatch (id : Nat) (s : State) : State :=
  State.batchGone id { s with batches := s.batches.filter fun b => b.id != id }

/-- A batch id joins the list of the batches drawn on: at its end if the list holds fewer than 6
ids, otherwise the extra-batch count rises by 1, up to 255 (R120 step 2; log entry 18). -/
def noteBatch (r : List Nat × Nat) (id : Nat) : List Nat × Nat :=
  if id ∈ r.1 then r
  else if r.1.length < 6 then (r.1 ++ [id], r.2)
  else (r.1, satSucc 255 r.2)

end Sys2Proof.Machine
end

