-- ==== Sys2Proof/Machine/Grout.lean ====
section
/-! DEFINITION. The grout engine (chapter 07): its requests, strokes, samples, marks and ends. -/

namespace Sys2Proof.Machine

/-! ## The register's transition for the grout engine (R13) -/

/-- The grout part, created if it does not yet exist (R6). -/
def Anchor.groutPart (a : Anchor) : GroutPart :=
  a.grout.getD ⟨none, none, none, .incomplete, 0, [], 0, 0⟩

/-- Whether the end of a grouting is a success (R13). -/
def groutSuccess (mode : GroutMode) (o : GroutOutcome) (volume design : Nat) : Bool :=
  match mode, o with
  | .primary, .complete => true
  | .primary, .refusal => design * 800 ≤ volume * 1000
  | .post, .refusal => true
  | _, _ => false

/-- The return state of the work part, if it has one (R4). -/
def Anchor.returnState (a : Anchor) : AnchorState := (a.work.bind Work.ret).getD a.state

/-- The state a grouting's end leaves the anchor in (R13). -/
def Anchor.afterGrout (a : Anchor) (mode : GroutMode) (ok : Bool) : AnchorState :=
  if ok then .grouted
  else match mode with
    | .primary => .short
    | .post => a.returnState

/-- What the grout engine gives the register at an end (R13). -/
structure GroutReport where
  mode : GroutMode
  outcome : GroutOutcome
  volume : Nat
  batchIds : List Nat
  extra : Nat
  unattributed : Nat
  time : Nat
  deriving DecidableEq, Repr

/-- The grout part as an end writes it (R6, R13). -/
def GroutPart.ended (g : GroutPart) (r : GroutReport) (ok : Bool) : GroutPart where
  endTime := some r.time
  primary := match r.mode with | .primary => some r.volume | .post => g.primary
  post := match r.mode with | .primary => g.post | .post => some r.volume
  outcome := r.outcome
  postCount := match r.mode with | .primary => g.postCount | .post => g.postCount + 1
  batchIds := if ok then r.batchIds else g.batchIds
  extra := if ok then r.extra else g.extra
  unattributed := if ok then r.unattributed else g.unattributed

/-- The register's end of a grouting (R13). -/
def Anchor.groutEnded (r : GroutReport) (a : Anchor) : Anchor :=
  if a.state = .grouting then
    let ok := groutSuccess r.mode r.outcome r.volume a.design.groutVolume
    { a with
      state := a.afterGrout r.mode ok
      work := none
      grout := some (a.groutPart.ended r ok) }
  else a

/-! ## Starting (R117, R118) -/

/-- The volume limit of a grouting: the target volume or the volume cap, rounded up (R118). -/
def groutLimit (c : Settings) (mode : GroutMode) (design : Nat) : Nat :=
  match mode with
  | .primary => ceilDiv (design * c.overfill) 1000
  | .post => ceilDiv (design * c.postCap) 1000

/-- The engine at an accepted START_GROUT, before it waits (R118). -/
def Grout.started (p : Position) (mode : GroutMode) (limit : Nat) (g : Grout) : Grout :=
  { g with
    pause := none, anchor := some p, mode := some mode, limit := some limit, injected := 0,
    strokes := 0, unattributed := 0, batchIds := [], extra := 0, peak := 0 }

/-- The engine waits for a batch when the queue is empty, and claims flow otherwise (R118,
R126). -/
def State.groutWait (s : State) : State :=
  if s.batches.isEmpty then { s with grout := { s.grout with state := .waitBatch } }
  else State.claimFlow .grout { s with grout := { s.grout with state := .waitFlow } }

/-- The operation and return state a START_GROUT writes (R4, R118). -/
def groutWork (mode : GroutMode) (st : AnchorState) : WorkOp × Option AnchorState :=
  match mode with
  | .primary => (.groutPrimary, none)
  | .post => (.groutPost, some st)

/-- The change of an accepted START_GROUT (R118). -/
def State.startGrout (p : Position) (a : Anchor) (mode : GroutMode) (s : State) : State :=
  State.groutWait
    { s with
      register := s.register.modify p
        (Anchor.startWork .grouting (groutWork mode a.state).1 (groutWork mode a.state).2
          s.nowSeconds)
      grout := s.grout.started p mode (groutLimit s.settings mode a.design.groutVolume) }

/-- The mode with a code (R186). -/
def modeOfCode : Nat → Option GroutMode
  | 1 => some .primary | 2 => some .post | _ => none

/-- Whether a mode fits an anchor's state (R117). -/
def GroutMode.fits : GroutMode → AnchorState → Bool
  | .primary, .placed => true
  | .post, .short => true
  | .post, .failed => true
  | _, _ => false

/-- START_GROUT as the engine decides it, its checks in order (R117, R118). -/
def decideStartGrout (ps : List Byte) (s : State) : Decision :=
  if ps.length ≠ 4 then refuse .badForm s
  else
    match modeOfCode (byteAt ps 3) with
    | none => refuse .badForm s
    | some mode =>
      if !(positionAt ps 0).valid then refuse .outOfRange s
      else
        match s.register.find (positionAt ps 0) with
        | none => refuse .noAnchor s
        | some a =>
          if !mode.fits a.state then refuse .wrongState s
          else if mode = .post ∧ 2 ≤ a.groutPart.postCount then refuse .limit s
          else if s.grout.state ≠ .idle then refuse .engineBusy s
          else if s.register.panelHolds a.pos.panel .testing then refuse .panelBusy s
          else if s.supply.latched then refuse .tripped s
          else if !s.clock.running then refuse .noTime s
          else .reply .ok [] (s.startGrout (positionAt ps 0) a mode)

/-- START_GROUT (R117, R118). -/
def onStartGrout (p : PortNo) (form : List Byte) (s : State) : Host.Outcome State Fault Refusal :=
  submit p 0x18 form .console true decideStartGrout s

/-! ## Ends, breaks and pauses (R114, R115, R116) -/

/-- Whether the engine stands in a break: WAIT_BATCH, WAIT_FLOW or PAUSED (R115). -/
def GroutState.inBreak : GroutState → Bool
  | .waitBatch => true | .waitFlow => true | .paused => true | _ => false

/-- The COLD_JOINT mark is inserted when the engine stands in a break, has counted a stroke and
does not hold the mark (R115). -/
def State.timeBreak (s : State) : State :=
  if s.grout.state.inBreak ∧ 0 < s.grout.strokes ∧ ¬ s.hasMark .coldJoint then
    s.insertMark .coldJoint (afterSeconds s.now s.settings.coldJointLimit)
  else s

/-- What the engine reports at an end (R114). -/
def State.groutReport (mode : GroutMode) (o : GroutOutcome) (s : State) : GroutReport where
  mode := mode
  outcome := o
  volume := s.grout.injected
  batchIds := s.grout.batchIds
  extra := s.grout.extra
  unattributed := s.grout.unattributed
  time := s.nowSeconds

/-- The register is told of the end, for the anchor the engine holds (R10, R114). -/
def State.reportGrout (o : GroutOutcome) (s : State) : State :=
  match s.grout.anchor, s.grout.mode with
  | some p, some mode => s.modifyAnchor p (Anchor.groutEnded (s.groutReport mode o))
  | _, _ => s

/-- The grout engine ends a grouting (R114). -/
def State.endGrout (o : GroutOutcome) (s : State) : State :=
  let t := ((((s.writeDuty .grout .pump 0).removeMark .coldJoint).removeMark .refusal).releaseFlow
    .grout).reportGrout o
  State.raise .groutEnd
    { t with grout := { t.grout with state := .idle, pause := none, anchor := none } }

/-- Every entry of the grout engine to PAUSED (R116). -/
def State.pauseGrout (r : PauseReason) (s : State) : State :=
  let t := ((s.writeDuty .grout .pump 0).removeMark .refusal).releaseFlow .grout
  State.raise .groutPaused
    (State.timeBreak { t with grout := { t.grout with state := .paused, pause := some r } })

/-- The COLD_JOINT mark expires: the break has lasted too long, and the grouting ends INCOMPLETE
(R115). -/
def State.groutColdJoint (s : State) : State :=
  if s.grout.state.inBreak then s.endGrout .incomplete else s

/-- The REFUSAL mark expires: the refusal hold has run its period, and the grouting ends REFUSAL
(R124). -/
def State.groutRefusal (s : State) : State :=
  if s.grout.state = .refusalHold then s.endGrout .refusal else s

/-! ## Arrivals, grants, trips (R119, R125) -/

/-- A batch arrival reaches the grout engine (R119). -/
def State.groutArrival (s : State) : State :=
  if s.grout.state = .waitBatch then
    State.claimFlow .grout { s with grout := { s.grout with state := .waitFlow } }
  else s

/-- The engine enters PUMPING: the pump duty written, its COLD_JOINT mark removed (R119, R124). -/
def State.pump (s : State) : State :=
  State.removeMark .coldJoint
    (State.writeDuty .grout .pump s.settings.pumpDuty
      { s with grout := { s.grout with state := .pumping } })

/-- A grant reaches the grout engine (R119). -/
def State.groutGrant (s : State) : State := if s.grout.state = .waitFlow then s.pump else s

/-- The grout engine handles a trip, told by notice or by a claim refused as TRIPPED (R119,
R125). -/
def State.groutTrip (s : State) : State :=
  if s.grout.state = .idle then s else s.pauseGrout .trip

/-! ## Strokes (R120, R121) -/

/-- The engine's batch list after some batches gave (R120 step 2). -/
def Grout.noted (g : Grout) (ids : List Nat) : List Nat × Nat :=
  ids.foldl noteBatch (g.batchIds, g.extra)

/-- The engine counts a stroke: its figures, the queue, and each batch used up (R120). -/
def State.countStroke (s : State) : State :=
  let c := chargeQueue s.settings.strokeVolume s.batches
  c.used.foldl (fun t id => t.batchGone id)
    { s with
      batches := c.queue
      grout := { s.grout with
        strokes := s.grout.strokes + 1
        injected := s.grout.injected + s.settings.strokeVolume
        batchIds := (s.grout.noted c.gave).1
        extra := (s.grout.noted c.gave).2
        unattributed := s.grout.unattributed + c.left } }

/-- WAIT_FLOW with the queue empty: the claim is released and the engine waits for a batch (R121,
R122). -/
def State.groutLoseQueue (s : State) : State :=
  State.timeBreak
    (State.releaseFlow .grout { s with grout := { s.grout with state := .waitBatch } })

/-- The checks after a counted stroke, in order (R121), with the COLD_JOINT mark of a first stroke
in a break (R115). -/
def State.afterStroke (s : State) : State :=
  if s.grout.limit.getD 0 ≤ s.grout.injected then
    s.endGrout (if s.grout.mode = some .primary then .complete else .incomplete)
  else if s.grout.state = .pumping ∧ s.batches.isEmpty then s.pauseGrout .batch
  else if s.grout.state = .waitFlow ∧ s.batches.isEmpty then s.groutLoseQueue
  else s.timeBreak

/-- The grout engine handles an accepted stroke (R120). -/
def State.groutStroke (s : State) : State :=
  if s.grout.state = .idle then s else s.countStroke.afterStroke

/-- A stroke delivery. -/
def Delivery.strokeOf : Delivery → Option (SiteTime × Option Nat)
  | .stroke t i => some (t, i)
  | _ => none

/-- STROKE: the oldest accepted stroke reaches the engine (R54, R120). -/
def onStroke (s : State) : Host.Outcome State Fault Refusal :=
  .next <| s.whenPowered fun s => s.deliverKind Delivery.strokeOf fun _ t => t.groutStroke

/-- The grout engine handles a batch removal by expiry or discard (R122). -/
def State.groutRemoval (s : State) : State :=
  if s.grout.state = .pumping ∧ s.batches.isEmpty then s.pauseGrout .batch
  else if s.grout.state = .waitFlow ∧ s.batches.isEmpty then s.groutLoseQueue
  else s

/-! ## Pressure (R123, R124) -/

/-- The engine enters REFUSAL_HOLD: PUMP 0, the grant kept, the REFUSAL mark inserted (R123). -/
def State.holdRefusal (s : State) : State :=
  State.insertMark .refusal (afterSeconds s.now s.settings.refusalPeriod)
    (State.writeDuty .grout .pump 0 { s with grout := { s.grout with state := .refusalHold } })

/-- A falling sample takes the engine out of REFUSAL_HOLD (R124). -/
def State.leaveRefusal (s : State) : State :=
  let t := s.removeMark .refusal
  if t.batches.isEmpty then t.pauseGrout .batch else t.pump

/-- What a grout sample does in PUMPING and REFUSAL_HOLD (R123). -/
def State.groutPressure (x : Sample) (s : State) : State :=
  if s.settings.groutMax < x.value ∨ x.saturated then
    State.raise .channelTrip (s.pauseGrout .overpressure)
  else if s.settings.refusalPressure ≤ x.value then
    if s.grout.state = .pumping then s.holdRefusal else s
  else if x.value * 1000 < s.settings.refusalPressure * 900 then
    if s.grout.state = .refusalHold then s.leaveRefusal else s
  else s

/-- The grout engine handles a grout sample (R123). -/
def State.groutSample (x : Sample) (s : State) : State :=
  if s.grout.state = .idle then s
  else if s.grout.state = .pumping ∨ s.grout.state = .refusalHold then
    State.groutPressure x
      { s with grout := { s.grout with
        latest := some (x.value, x.saturated), peak := max s.grout.peak x.value } }
  else { s with grout := { s.grout with latest := some (x.value, x.saturated) } }

/-! ## Operator requests (R126, R127) -/

/-- CONTINUE_GROUT as the engine decides it (R126). -/
def decideContinueGrout (ps : List Byte) (s : State) : Decision :=
  if ps.length ≠ 0 then refuse .badForm s
  else if s.grout.state ≠ .paused then refuse .wrongState s
  else if s.supply.latched then refuse .tripped s
  else .reply .ok [] (State.groutWait { s with grout := { s.grout with pause := none } })

/-- CONTINUE_GROUT (R126). -/
def onContinueGrout (p : PortNo) (form : List Byte) (s : State) :
    Host.Outcome State Fault Refusal :=
  submit p 0x19 form .console false decideContinueGrout s

/-- ABORT_GROUT as the engine decides it (R127). -/
def decideAbortGrout (ps : List Byte) (s : State) : Decision :=
  if ps.length ≠ 0 then refuse .badForm s
  else if s.grout.state = .idle then refuse .wrongState s
  else .reply .ok [] (s.endGrout .incomplete)

/-- ABORT_GROUT (R127). -/
def onAbortGrout (p : PortNo) (form : List Byte) (s : State) : Host.Outcome State Fault Refusal :=
  submit p 0x1A form .console false decideAbortGrout s

end Sys2Proof.Machine
end

