-- ==== Sys2Proof/Machine/BatchRequests.lean ====
section
/-! DEFINITION. The batch queue's commands: POST_BATCH, DISCARD_BATCH (R108, R109, R111). -/

namespace Sys2Proof.Machine

/-- The batch a POST_BATCH names (R106, R187). -/
def batchOf (ps : List Byte) : Batch where
  id := u16At ps 0
  mixTime := u32At ps 2
  ratio := u16At ps 6
  volume := u16At ps 8
  life := byteAt ps 10
  expiry := u32At ps 2 + byteAt ps 10 * 60
  remaining := u16At ps 8

/-- The number of the first field of a batch that is out of range: 1, 4 or 5 (R108). -/
def Batch.outOfRange (b : Batch) : Option Nat :=
  if b.id < 1 ∨ 65535 < b.id then some 1
  else if b.volume < 1 ∨ 20000 < b.volume then some 4
  else if b.life < 30 ∨ 240 < b.life then some 5
  else none

/-- Whether a mix time may stand behind the queue's tail (R108). -/
def mixInOrder (b : Batch) (queue : List Batch) : Bool :=
  match queue.getLast? with
  | some x => x.mixTime ≤ b.mixTime
  | none => true

/-- The change of an accepted POST_BATCH: the batch joins at the tail with its EXPIRY mark, and the
grout engine is told (R109). -/
def State.postBatch (b : Batch) (s : State) : State :=
  State.groutArrival
    (State.insertMark (.expiry b.id) (clampTime (b.expiry * 1024))
      { s with batches := s.batches ++ [b] })

/-- POST_BATCH as the batch queue decides it, its checks in order (R108, R109). -/
def decidePostBatch (ps : List Byte) (s : State) : Decision :=
  if ps.length ≠ 11 then refuse .badForm s
  else
    match (batchOf ps).outOfRange with
    | some k => refuseWith .outOfRange (enc8 k) s
    | none =>
      if !s.clock.running then refuse .noTime s
      else if 4 ≤ s.batches.length then refuse .queueFull s
      else if s.batches.any (fun b => b.id == (batchOf ps).id) then refuse .duplicate s
      else if (batchOf ps).ratio < 380 ∨ 550 < (batchOf ps).ratio then refuse .badMix s
      else if s.nowSeconds + 60 < (batchOf ps).mixTime then refuse .badForm s
      else if (batchOf ps).expiry ≤ s.nowSeconds then refuse .expired s
      else if !mixInOrder (batchOf ps) s.batches then refuse .badForm s
      else
        .reply .ok (enc32 (batchOf ps).expiry ++ enc8 (s.batches.length + 1))
          (s.postBatch (batchOf ps))

/-- POST_BATCH (R108, R109). -/
def onPostBatch (p : PortNo) (form : List Byte) (s : State) : Host.Outcome State Fault Refusal :=
  submit p 0x30 form .field false decidePostBatch s

/-- A batch leaves for cause EXPIRED or DISCARDED, and the grout engine is told (R110, R122). -/
def State.removeBatch (id : Nat) (s : State) : State := (s.takeBatch id).groutRemoval

/-- DISCARD_BATCH as the batch queue decides it (R111). -/
def decideDiscardBatch (ps : List Byte) (s : State) : Decision :=
  if ps.length ≠ 2 then refuse .badForm s
  else
    match s.batches.find? fun b => b.id == u16At ps 0 with
    | none => refuse .noRecord s
    | some b => .reply .ok (enc16 b.remaining) (s.removeBatch b.id)

/-- DISCARD_BATCH (R111). -/
def onDiscardBatch (p : PortNo) (form : List Byte) (s : State) :
    Host.Outcome State Fault Refusal :=
  submit p 0x31 form .fieldOrConsole false decideDiscardBatch s

end Sys2Proof.Machine
end

