-- ==== Sys2Proof/Machine/Certificate.lean ====
section
/-! DEFINITION. The certificate record (R176, R194) and the layouts it shares with other replies. -/

namespace Sys2Proof.Machine

/-- A creep figure as a record carries it, clamped to -32768..32767 (R194). -/
def clampCreep (i : Int) : Int := max (-32768) (min 32767 i)

/-- A creep entry's six bytes: step, extended, alpha, alpha_ext (R194). -/
def encCreep (e : CreepEntry) : List Byte :=
  enc8 e.step ++ encFlag e.alphaExt.isSome ++ encS16 (clampCreep e.alpha) ++
    encS16 (clampCreep (e.alphaExt.getD 0))

/-- A reading's twelve bytes: step index, kind, time, load, displacement (R194). -/
def encReading (r : Reading) : List Byte :=
  enc8 r.step ++ enc8 r.kind.code ++ enc16 r.time ++ encS32 r.load ++ encS32 r.disp

/-- The six slots of a batch list; unused slots are 0 (R192, R193, R194). -/
def encIds (ids : List Nat) : List Byte := ((ids ++ List.replicate 6 0).take 6).flatMap enc16

/-- The volume in the grout summary: the last post volume when the post count is above 0, and the
primary volume otherwise (R176). -/
def GroutPart.volume (g : GroutPart) : Option Nat := if 0 < g.postCount then g.post else g.primary

/-- Whether P_lock is in the certificate: absent for CREEP_FAIL only (R164). -/
def hasLockLoad (result : TestCode) : Bool := result != .creepFail

/-- The figures present, bits 0..8 (R194). -/
def certificateBits (e : Stress) (a : Anchor) (result : TestCode) : Nat :=
  bitIf e.lengths.isSome 0 + bitIf e.lengths.isSome 1 + bitIf e.lengths.isSome 2 +
    bitIf e.lengths.isSome 3 + bitIf (hasLockLoad result) 4 + bitIf e.lock.residual.isSome 5 +
    bitIf e.lock.drawIn.isSome 6 + bitIf (a.grout.bind GroutPart.endTime).isSome 7 +
    bitIf (a.grout.bind GroutPart.volume).isSome 8

/-- The seven length figures, absent ones as 0 (R194, R186). -/
def encLengths (l : Option LengthFigures) : List Byte :=
  match l with
  | some l =>
    encS32 l.datumLoad ++ encS32 l.peakLoad ++ encS32 l.sPeak ++ encS32 l.sPerm ++
      encS32 l.deltaP ++ encS32 l.deltaS ++ encS32 l.lApp
  | none => List.replicate 28 0

/-- The grout summary (R176, R194). -/
def encGroutSummary (g : Option GroutPart) : List Byte :=
  match g with
  | some g =>
    enc32 (g.endTime.getD 0) ++ enc16 (g.volume.getD 0) ++ enc8 g.outcome.code ++
      enc8 g.postCount ++ enc8 g.batchIds.length ++ encIds g.batchIds ++ enc8 g.extra
  | none => List.replicate 22 0

/-- The lock-off figures (R194): P_lock, residual, not-lifted, retries, draw-in. -/
def encLockFigures (e : Stress) (result : TestCode) : List Byte :=
  enc32 (if hasLockLoad result then e.pLock.getD 0 else 0) ++ enc32 (e.lock.residual.getD 0) ++
    (if e.lock.residual.isSome then encFlag e.lock.notLifted else enc8 0) ++ enc8 e.lock.retries ++
    encS32 (e.lock.drawIn.getD 0)

/-- The length of a certificate record: 104 + 6 c + 12 n (R176). -/
def certificateLength (e : Stress) : Nat := 104 + 6 * e.creep.length + 12 * e.log.length

/-- The certificate record of an evaluated test of an anchor (R176, R194): the engine's figures and
reading log, the anchor's design and grout parts, the test count it carries, and the end time. -/
def certificateRecord (e : Stress) (a : Anchor) (result : TestCode) (count endTime : Nat) :
    List Byte :=
  enc8 1 ++ enc8 1 ++ enc16 (certificateLength e) ++ encPos (some a.pos) ++ enc8 count ++
    enc8 (e.profileNo.getD 0) ++ enc8 result.code ++ enc32 (certificateBits e a result) ++
    enc32 (secondsOf (e.start.getD 0)) ++ enc32 endTime ++ enc16 a.design.workLoad ++
    enc16 a.design.tendonArea ++ enc16 a.design.modulus ++ enc16 a.design.freeLength ++
    enc16 a.design.bondLength ++ enc16 a.design.lockRatio ++ encLengths e.lengths ++
    enc8 e.creep.length ++ e.creep.flatMap encCreep ++ encLockFigures e result ++
    enc16 e.makeUps ++ enc16 e.suspensions ++ encGroutSummary a.grout ++ enc8 e.log.length ++
    e.log.flatMap encReading

end Sys2Proof.Machine
end

