-- ==== Sys2Proof/Machine/Winch.lean ====
section
/-! DEFINITION. The winch engine (chapter 06): its requests, its samples, its jams and stops. -/

namespace Sys2Proof.Machine

/-! ## The register's transitions for the winch (R10, R12) -/

/-- The placement part, created if it does not yet exist (R5, R12). -/
def Anchor.placementPart (a : Anchor) : Placement := a.placement.getD ⟨none, 0, 0⟩

/-- The register's completion of a placement (R12). -/
def Anchor.placed (length : Int) (time jams : Nat) (a : Anchor) : Anchor :=
  if a.state = .placing then
    { a with
      state := .placed, work := none
      placement := some { a.placementPart with placed := some (length, time), jams := jams } }
  else a

/-- The register's end of a placement by ABORT_WINCH (R12, R5). -/
def Anchor.placingAborted (jams : Nat) (a : Anchor) : Anchor :=
  if a.state = .placing then
    { a with
      state := .declared, work := none
      placement := some ⟨none, jams, satSucc 255 a.placementPart.aborts⟩ }
  else a

/-- The register is told of the engine's anchor. -/
def State.onWinchAnchor (f : Anchor → Anchor) (s : State) : State :=
  match s.winch.anchor with
  | some p => s.modifyAnchor p f
  | none => s

/-! ## Starting (R93, R94) -/

/-- The engine at an accepted START_WINCH (R94). -/
def Winch.started (p : Position) (boundary : Nat) : Winch where
  state := .waitFlow
  reason := none
  anchor := some p
  slowBoundary := some boundary
  jamCount := 0
  paid := 0
  tension := 0
  jamTiming := false

/-- The change of an accepted START_WINCH (R94). -/
def State.startWinch (p : Position) (a : Anchor) (s : State) : State :=
  State.claimFlow .winch
    { s with
      register := s.register.modify p (Anchor.startWork .placing .place none s.nowSeconds)
      winch := Winch.started p (a.design.tendonLength - s.settings.slowZone)
      meas := { s.meas with drumRef := s.meas.drum.count } }

/-- START_WINCH as the engine decides it, its checks in order (R93, R94). -/
def decideStartWinch (ps : List Byte) (s : State) : Decision :=
  if ps.length ≠ 3 then refuse .badForm s
  else if !(positionAt ps 0).valid then refuse .outOfRange s
  else
    match s.register.find (positionAt ps 0) with
    | none => refuse .noAnchor s
    | some a =>
      if a.state ≠ .declared then refuse .wrongState s
      else if s.winch.state ≠ .idle then refuse .engineBusy s
      else if s.supply.latched then refuse .tripped s
      else if !s.clock.running then refuse .noTime s
      else .reply .ok [] (s.startWinch (positionAt ps 0) a)

/-- START_WINCH (R93, R94). -/
def onStartWinch (p : PortNo) (form : List Byte) (s : State) : Host.Outcome State Fault Refusal :=
  submit p 0x10 form .console true decideStartWinch s

/-! ## Stops (R99, R101, R102) -/

/-- The JAM mark is removed and jam timing becomes no, when it is yes (R98). -/
def State.stopJamTiming (s : State) : State :=
  if s.winch.jamTiming then
    State.removeMark .jam { s with winch := { s.winch with jamTiming := false } }
  else s

/-- Every entry to STOPPED (R99). -/
def State.stopWinch (r : StopReason) (s : State) : State :=
  let t := ((s.writeDuty .winch .winch 0).stopJamTiming).releaseFlow .winch
  State.raise .winchStopped { t with winch := { t.winch with state := .stopped, reason := some r } }

/-- The winch engine handles a trip, told by notice or by a claim refused as TRIPPED (R95,
R101). -/
def State.winchTrip (s : State) : State :=
  match s.winch.state with
  | .waitFlow | .run | .slow => s.stopWinch .trip
  | .idle | .stopped => s

/-- The winch engine handles a drum encoder fault (R102). -/
def State.winchEncoderFault (s : State) : State :=
  match s.winch.state with
  | .waitFlow | .run | .slow => s.stopWinch .encoder
  | .idle | .stopped => s

/-! ## Running (R95, R96, R97, R98) -/

/-- A grant reaches the winch engine (R95). -/
def State.winchGrant (s : State) : State :=
  if s.winch.state = .waitFlow then
    if s.winch.paid < (s.winch.slowBoundary.getD 0 : Int) then
      State.writeDuty .winch .winch s.settings.runDuty { s with winch := { s.winch with state := .run } }
    else
      State.writeDuty .winch .winch s.settings.slowDuty
        { s with winch := { s.winch with state := .slow } }
  else s

/-- The winch engine lets go of its anchor (R97, R104; log entry 19). -/
def Winch.letGo (w : Winch) : Winch :=
  { w with
    state := .idle, reason := none, anchor := none, slowBoundary := none, paid := 0, tension := 0 }

/-- The end of a completed placement (R97). -/
def State.completePlacement (paid : Int) (s : State) : State :=
  let t := ((s.writeDuty .winch .winch 0).stopJamTiming).releaseFlow .winch
  let u := t.onWinchAnchor (Anchor.placed paid t.nowSeconds t.winch.jamCount)
  State.raise .winchEnd { u with winch := u.winch.letGo }

/-- Whether a sample is high for the jam check (R98). -/
def State.jamHigh (x : Sample) (s : State) : Bool := s.settings.jamTension ≤ x.value || x.saturated

/-- The jam check (R98). -/
def State.jamCheck (x : Sample) (s : State) : State :=
  if s.jamHigh x then
    if s.winch.jamTiming then s
    else
      State.insertMark .jam (afterMillis s.now s.settings.jamTime)
        { s with winch := { s.winch with jamTiming := true } }
  else s.stopJamTiming

/-- L_ten of the engine's anchor. -/
def State.winchLength (s : State) : Option Nat :=
  (s.winch.anchor.bind s.register.find).map fun a => a.design.tendonLength

/-- In RUN, a paid length at or above the slow boundary sends the engine to SLOW (R96 step 2). -/
def State.enterSlow (paid : Int) (s : State) : State :=
  if s.winch.state = .run ∧ (s.winch.slowBoundary.getD 0 : Int) ≤ paid then
    State.writeDuty .winch .winch s.settings.slowDuty { s with winch := { s.winch with state := .slow } }
  else s

/-- Whether a paid length has reached L_ten (R96 step 1). -/
def State.winchReached (paid : Int) (s : State) : Bool :=
  match s.winchLength with
  | some len => decide ((len : Int) ≤ paid)
  | none => false

/-- The winch engine handles a tension sample with the paid length formed at its arrival (R96). -/
def State.winchSample (x : Sample) (paid : Int) (s : State) : State :=
  if s.winch.state = .idle then s
  else
    let t := { s with winch := { s.winch with paid := paid, tension := x.value } }
    if t.winch.state = .run ∨ t.winch.state = .slow then
      if t.winchReached paid then t.completePlacement paid
      else (t.enterSlow paid).jamCheck x
    else t

/-- The winch engine handles the expiry of its JAM mark (R100). -/
def State.winchJam (s : State) : State :=
  if s.winch.state = .run ∨ s.winch.state = .slow then
    State.stopWinch .jam { s with winch := { s.winch with jamCount := s.winch.jamCount + 1 } }
  else s

/-! ## Operator requests (R103, R104) -/

/-- The change of an accepted CONTINUE_WINCH (R103). -/
def State.continueWinch (s : State) : State :=
  State.claimFlow .winch { s with winch := { s.winch with state := .waitFlow, reason := none } }

/-- CONTINUE_WINCH as the engine decides it (R103). -/
def decideContinueWinch (ps : List Byte) (s : State) : Decision :=
  if ps.length ≠ 0 then refuse .badForm s
  else if s.winch.state ≠ .stopped then refuse .wrongState s
  else if s.supply.latched then refuse .tripped s
  else if s.winch.reason = some .jam ∧ s.winch.jamCount = 3 then refuse .limit s
  else .reply .ok [] s.continueWinch

/-- CONTINUE_WINCH (R103). -/
def onContinueWinch (p : PortNo) (form : List Byte) (s : State) :
    Host.Outcome State Fault Refusal :=
  submit p 0x11 form .console false decideContinueWinch s

/-- The change of an accepted ABORT_WINCH (R104). -/
def State.abortWinch (s : State) : State :=
  let t := ((s.writeDuty .winch .winch 0).stopJamTiming).releaseFlow .winch
  let u := t.onWinchAnchor (Anchor.placingAborted t.winch.jamCount)
  { u with winch := u.winch.letGo }

/-- ABORT_WINCH as the engine decides it (R104). -/
def decideAbortWinch (ps : List Byte) (s : State) : Decision :=
  if ps.length ≠ 0 then refuse .badForm s
  else if s.winch.state = .idle then refuse .wrongState s
  else .reply .ok [] s.abortWinch

/-- ABORT_WINCH (R104). -/
def onAbortWinch (p : PortNo) (form : List Byte) (s : State) : Host.Outcome State Fault Refusal :=
  submit p 0x12 form .console false decideAbortWinch s

end Sys2Proof.Machine
end

