-- ==== Sys2Proof/Machine/Meas.lean ====
section
/-! DEFINITION. The measurement unit (chapter 03): conversions, samples, counters, strokes, the
lift-off compare. -/

namespace Sys2Proof.Machine

/-! ## Conversions (R45, R46, R47, R50, R51) -/

/-- A code as a share of a full scale (R45, R47). -/
def scaleCode (code fullScale : Nat) : Nat := roundDivNat (code * fullScale) 4095

/-- The jack load of a pressure (R46). -/
def jackLoad (c : Settings) (p : Nat) : Nat := roundDivNat (p * c.ramArea * c.efficiency) 10000000

/-- A difference of counts, modulo 2^32 as a signed 32-bit value (R48). -/
def countDiff (a b : BitVec 32) : Int := (a - b).toInt

/-- The paid length in mm (R50). -/
def State.paidLength (s : State) : Int :=
  roundDiv (countDiff s.meas.drum.count s.meas.drumRef * 1000) s.settings.drumScale

/-- The displacement s in 0.01 mm; 0 while the datum count is unset (R51). -/
def State.displacement (s : State) : Int :=
  match s.meas.ramDatum with
  | some d => roundDiv (countDiff s.meas.ram.count d * 100) s.settings.ramScale
  | none => 0

/-- The travel in 0.01 mm (R51). -/
def State.travel (s : State) : Int :=
  roundDiv (countDiff s.meas.ram.count s.meas.ramStart * 100) s.settings.ramScale

/-- A sample of a pressure channel or of the tension channel: its value under a full scale (R43,
R44, R45, R47). -/
def State.sampleOf (fullScale : Nat) (code : BitVec 12) (s : State) : Sample where
  code := code.toNat
  value := scaleCode code.toNat fullScale
  load := 0
  saturated := code.toNat == 4095
  time := s.now

/-- A sample of the JACK channel: pressure and load (R45, R46). -/
def State.jackSampleOf (code : BitVec 12) (s : State) : Sample :=
  { s.sampleOf s.settings.jackFs code with
    load := jackLoad s.settings (scaleCode code.toNat s.settings.jackFs) }

/-! ## Tension and grout samples (R43) -/

/-- TENSION_SAMPLE: the unit keeps the sample and hands it, with the paid length, to the winch
engine (R43, R47, R50, R96). -/
def onTensionSample (code : BitVec 12) (s : State) : Host.Outcome State Fault Refusal :=
  .next <| s.whenPowered fun s =>
    State.winchSample (s.sampleOf s.settings.tensionFs code) s.paidLength
      { s with meas := { s.meas with tension := some (s.sampleOf s.settings.tensionFs code) } }

/-- GROUT_SAMPLE: the unit keeps the sample and hands it to the grout engine (R43, R45, R123). -/
def onGroutSample (code : BitVec 12) (s : State) : Host.Outcome State Fault Refusal :=
  .next <| s.whenPowered fun s =>
    State.groutSample (s.sampleOf s.settings.groutFs code)
      { s with meas := { s.meas with grout := some (s.sampleOf s.settings.groutFs code) } }

/-! ## Counters (R48, R49) -/

/-- The next pair in the sequence of counting up: 00, 10, 11, 01, 00 (R48). -/
def nextPair (q : PhasePair) : PhasePair :=
  match q.a, q.b with
  | false, false => ⟨true, false⟩
  | true, false => ⟨true, true⟩
  | true, true => ⟨false, true⟩
  | false, true => ⟨false, false⟩

/-- What a new pair means to the decoder (R48, R49). -/
inductive PhaseMove where
  | still | up | down | fault
  deriving DecidableEq, Repr

/-- The move from the last pair seen to a new one (R48, R49). -/
def phaseMove (old new : PhasePair) : PhaseMove :=
  if new = old then .still
  else if new = nextPair old then .up
  else if old = nextPair new then .down
  else .fault

/-- An encoder after a move: the counter wraps at 32 bits, the fault count stays at 255, and the
new pair is the last pair seen (R48, R49). -/
def EncoderState.move (new : PhasePair) (e : EncoderState) : EncoderState :=
  match phaseMove e.pair new with
  | .still => e
  | .up => { e with count := e.count + 1, pair := new }
  | .down => { e with count := e.count - 1, pair := new }
  | .fault => { e with pair := new, faults := satSucc 255 e.faults }

/-- The encoder with a name. -/
def Meas.encoder (m : Meas) : Encoder → EncoderState
  | .drum => m.drum | .ram => m.ram

/-- The unit with one encoder moved to a new pair. -/
def Meas.moveEncoder (enc : Encoder) (new : PhasePair) (m : Meas) : Meas :=
  match enc with
  | .drum => { m with drum := m.drum.move new }
  | .ram => { m with ram := m.ram.move new }

/-! ## The lift-off compare (R55) -/

/-- The compare is set at a point (R55). -/
def State.setCompare (point : Int) (s : State) : State :=
  { s with meas := { s.meas with compare := some point } }

/-- The compare is unset (R55). -/
def State.unsetCompare (s : State) : State := { s with meas := { s.meas with compare := none } }

/-- Whether a displacement has reached the compare point, the compare being set (R55). -/
def State.crossing (s : State) : Bool :=
  match s.meas.compare with
  | some point => point ≤ s.displacement
  | none => false

/-- After a ram step of +1: at or above the point the compare fires, becoming unset and handing the
latest jack sample on; without a sample there is nothing to hand on (R55; log entry 26). -/
def State.checkCompare (s : State) : State :=
  if s.crossing then
    match s.meas.jack with
    | some x => s.unsetCompare.send (.capture x)
    | none => s.unsetCompare
  else s

/-! ## Strokes (R53, R54) -/

/-- An edge is accepted: the timer restarts, the interval is kept, the count wraps, and the stroke
is handed to the grout engine (R53, R54). -/
def State.acceptStroke (interval : Option Nat) (s : State) : State :=
  State.send (.stroke s.now interval)
    { s with meas := { s.meas with
      strokeTimer := some 0, lastInterval := interval,
      accepted := (s.meas.accepted + 1) % 4294967296 } }

/-- STROKE_EDGE: a rising edge is accepted as a stroke or ignored as bounce (R53). -/
def onStrokeEdge (s : State) : Host.Outcome State Fault Refusal :=
  .next <| s.whenPowered fun s =>
    match s.meas.strokeTimer with
    | none => s.acceptStroke none
    | some t =>
      if s.settings.minStroke ≤ t then s.acceptStroke (some t)
      else { s with meas := { s.meas with bounce := satSucc 65535 s.meas.bounce } }

/-- STROKE_TIMER_TICK: one more millisecond, stopping at 65,535 (R53). -/
def onStrokeTimerTick (s : State) : Host.Outcome State Fault Refusal :=
  .next <| s.whenPowered fun s =>
    { s with meas := { s.meas with strokeTimer := s.meas.strokeTimer.map (satSucc 65535) } }

end Sys2Proof.Machine
end

