-- ==== Sys2Proof/Machine/Panels.lean ====
section
/-! DEFINITION. The panel table (chapter 05): readings, staleness, locked sums, permits, reads. -/

namespace Sys2Proof.Machine

/-! ## The records (R74) -/

/-- The record of panel n, 1..32 (R74). -/
def panelAt (ps : List Panel) (n : Nat) : Panel := ps.getD (n - 1) .atStartUp

/-- The table with the record of panel n replaced. -/
def putPanel (n : Nat) (x : Panel) (ps : List Panel) : List Panel :=
  if n = 0 then ps else ps.set (n - 1) x

/-- A panel's record changed. -/
def State.modifyPanel (n : Nat) (f : Panel → Panel) (s : State) : State :=
  { s with panels := putPanel n (f (panelAt s.panels n)) s.panels }

/-- Panels p-1, p and p+1, for those in use, in that order (R74, R87). -/
def neighbourhood (count p : Nat) : List Nat :=
  [p - 1, p, p + 1].filter fun q => 1 ≤ q && q ≤ count

/-- The neighbours of a panel, p-1 before p+1 (R74, R88). -/
def neighbours (count p : Nat) : List Nat := (neighbourhood count p).filter fun q => q != p

/-- The state that a deflection gives by the levels in force (R75). -/
def derivedState (c : Settings) (d : Int) : PanelState :=
  if d.natAbs < c.alertLevel then .clear
  else if d.natAbs < c.actionLevel then .alert
  else .action

/-- A panel's state becomes the one given; at a change the change count rises, PANEL_CHANGE is
raised and the change is delivered to the stress engine (R80). -/
def State.changePanel (n : Nat) (new : PanelState) (s : State) : State :=
  let old := panelAt s.panels n
  if old.state = new then s
  else
    State.raise .panelChange
      (State.send (.panelChange n old.state new)
        (s.modifyPanel n fun x => { x with state := new, changes := (x.changes + 1) % 65536 }))

/-! ## POST_WALL (R76, R77, R78) -/

/-- A wall reading (R76). -/
structure WallReading where
  panel : Nat
  deflection : Int
  time : Nat
  deriving DecidableEq, Repr

/-- So many wall readings from an index on (R187). -/
def wallReadingsAt (ps : List Byte) : Nat → Nat → List WallReading
  | _, 0 => []
  | i, n + 1 =>
    ⟨byteAt ps i, s16At ps (i + 1), u32At ps (i + 3)⟩ :: wallReadingsAt ps (i + 7) n

/-- Whether a reading is later than the panel's latest one (R77). -/
def laterThan (t : Nat) (x : Panel) : Bool :=
  match x.reading with
  | some r => r.2 < t
  | none => true

/-- The check a reading fails first, if it fails one (R77). -/
def readingDropped (r : WallReading) (s : State) : Option ReadingOutcome :=
  if r.panel = 0 ∨ s.settings.panelCount < r.panel then some .noPanel
  else if s.nowSeconds + 60 < r.time then some .ahead
  else if !laterThan r.time (panelAt s.panels r.panel) then some .old
  else none

/-- A deflection clamped to -3000..3000 (R78). -/
def clampDeflection (d : Int) : Int := max (-3000) (min 3000 d)

/-- A reading is taken: the panel's deflection, time and state, and its STALENESS mark (R78). -/
def State.takeReading (r : WallReading) (s : State) : State :=
  State.insertMark (.staleness r.panel) (clampTime ((r.time + s.settings.stalePeriod) * 1024))
    (State.changePanel r.panel (derivedState s.settings (clampDeflection r.deflection))
      (s.modifyPanel r.panel fun x =>
        { x with reading := some (clampDeflection r.deflection, r.time) }))

/-- One reading of a POST_WALL, taken or dropped, with its outcome (R77, R78). -/
def State.wallReading (r : WallReading) (s : State) : State × ReadingOutcome :=
  match readingDropped r s with
  | some o => (s, o)
  | none =>
    (s.takeReading r, if clampDeflection r.deflection = r.deflection then .taken else .takenClamped)

/-- The readings of a POST_WALL, one by one in request order (R76). -/
def State.wallReadings : List WallReading → State → State × List ReadingOutcome
  | [], s => (s, [])
  | r :: rs, s =>
    let one := s.wallReading r
    let more := State.wallReadings rs one.1
    (more.1, one.2 :: more.2)

/-- Whether an outcome says that the reading was taken (R76). -/
def ReadingOutcome.isTaken : ReadingOutcome → Bool
  | .taken => true | .takenClamped => true | _ => false

/-- POST_WALL as the panel table decides it (R76). -/
def decidePostWall (ps : List Byte) (s : State) : Decision :=
  if byteAt ps 0 < 1 ∨ 8 < byteAt ps 0 ∨ ps.length ≠ 1 + 7 * byteAt ps 0 then refuse .badForm s
  else if !s.clock.running then refuse .noTime s
  else
    let r := s.wallReadings (wallReadingsAt ps 1 (byteAt ps 0))
    .reply (if r.2.contains .takenClamped then .okClamped else .ok)
      (enc8 (r.2.filter ReadingOutcome.isTaken).length ++
        enc8 (r.2.filter fun o => !o.isTaken).length ++ r.2.flatMap fun o => enc8 o.code)
      r.1

/-- POST_WALL (R76). A mark inserted already due expires once the decision is complete (R78,
R39). -/
def onPostWall (p : PortNo) (form : List Byte) (s : State) : Host.Outcome State Fault Refusal :=
  submit p 0x38 form .survey false decidePostWall s

/-! ## Queries and permits (R81, R87, R88, R144) -/

/-- Whether the wall is quiet for a test in panel p: each panel of the neighbourhood CLEAR or ALERT
(R144, by the query of R81). -/
def State.wallQuiet (p : Nat) (s : State) : Bool :=
  (neighbourhood s.settings.panelCount p).all fun q =>
    (panelAt s.panels q).state == .clear || (panelAt s.panels q).state == .alert

/-- The first panel of the neighbourhood that is not CLEAR (R87). -/
def State.panelHeld (p : Nat) (s : State) : Option Nat :=
  (neighbourhood s.settings.panelCount p).find? fun q => (panelAt s.panels q).state != .clear

/-- The difference of the projection to a neighbour's locked sum (R88). -/
def State.imbalance (p pLock q : Nat) (s : State) : Nat :=
  (((panelAt s.panels p).lockedSum + pLock : Int) - (panelAt s.panels q).lockedSum).natAbs

/-- The first neighbour whose difference exceeds the imbalance limit (R88). -/
def State.imbalanced (p pLock : Nat) (s : State) : Option Nat :=
  (neighbours s.settings.panelCount p).find? fun q =>
    s.settings.imbalanceLimit < s.imbalance p pLock q

/-! ## Locked sums (R84, R85) -/

/-- A newly LOCKED anchor's residual is added to its panel's locked sum (R84). -/
def State.addLocked (panel residual : Nat) (s : State) : State :=
  s.modifyPanel panel fun x => { x with lockedSum := x.lockedSum + residual }

/-- The residual of a LOCKED record of a panel, 0 for another record (R85). -/
def Anchor.lockedIn (panel : Nat) (a : Anchor) : Nat :=
  if a.state = .locked ∧ a.pos.panel = panel then ((a.test.bind TestPart.residual).getD 0) else 0

/-- The total of the residuals of the LOCKED records in a panel (R84, R85). -/
def lockedTotal (panel : Nat) (records : List Anchor) : Nat :=
  (records.map fun a => a.lockedIn panel).sum

/-- The panels from number n on with their locked sums computed from the register (R85). -/
def recomputeFrom (records : List Anchor) : Nat → List Panel → List Panel
  | _, [] => []
  | n, x :: rest =>
    { x with lockedSum := lockedTotal n records } :: recomputeFrom records (n + 1) rest

/-- Every panel's locked sum recomputed in one change (R85). -/
def State.recomputeLocked (s : State) : State :=
  { s with panels := recomputeFrom s.register.records 1 s.panels }

/-! ## Settings taken into force (R82) -/

/-- A panel taken out of use: mark removed, reading absent, STALE, without a PANEL_CHANGE (R82). -/
def State.retirePanel (s : State) (n : Nat) : State :=
  State.removeMark (.staleness n) (s.modifyPanel n fun x => { x with state := .stale, reading := none })

/-- A panel judged again by new levels, if it is not STALE (R82). -/
def State.rejudgePanel (s : State) (n : Nat) : State :=
  match (panelAt s.panels n).state, (panelAt s.panels n).reading with
  | .stale, _ => s
  | _, some r => s.changePanel n (derivedState s.settings r.1)
  | _, none => s

/-- The numbers a .. b. -/
def numbersFrom (a b : Nat) : List Nat := (List.range (b + 1 - a)).map fun i => a + i

/-- The panel table applies the panel settings that changed, the new ones being in force (R82). DESIGN
CHOICE: panels are judged again, and their changes delivered, in ascending order of number (log
entry 37). -/
def State.applyPanelSettings (old : Settings) (s : State) : State :=
  let t := (numbersFrom (s.settings.panelCount + 1) old.panelCount).foldl State.retirePanel s
  if old.alertLevel ≠ s.settings.alertLevel ∨ old.actionLevel ≠ s.settings.actionLevel then
    (numbersFrom 1 s.settings.panelCount).foldl State.rejudgePanel t
  else t

/-! ## READ_PANELS (R90) -/

/-- The fifteen bytes of a panel in a READ_PANELS reply (R187). -/
def encPanel (n : Nat) (x : Panel) : List Byte :=
  enc8 n ++ enc8 x.state.code ++
    (match x.reading with
      | some r => enc8 1 ++ encS16 r.1 ++ enc32 r.2
      | none => enc8 0 ++ encS16 0 ++ enc32 0) ++
    enc32 x.lockedSum ++ enc16 x.changes

/-- The panels a READ_PANELS returns (R90). -/
def panelRun (count first wanted : Nat) : List Nat :=
  numbersFrom first (min count (first + wanted - 1))

/-- READ_PANELS as the panel table decides it (R90). -/
def decideReadPanels (ps : List Byte) (s : State) : Decision :=
  if ps.length ≠ 2 ∨ byteAt ps 1 < 1 ∨ 8 < byteAt ps 1 then refuse .badForm s
  else if byteAt ps 0 = 0 ∨ s.settings.panelCount < byteAt ps 0 then refuse .outOfRange s
  else
    let run := panelRun s.settings.panelCount (byteAt ps 0) (byteAt ps 1)
    .reply .ok (enc8 run.length ++ run.flatMap fun n => encPanel n (panelAt s.panels n)) s

/-- READ_PANELS (R90). -/
def onReadPanels (p : PortNo) (form : List Byte) (s : State) : Host.Outcome State Fault Refusal :=
  submit p 0x40 form .every false decideReadPanels s

end Sys2Proof.Machine
end

