-- ==== Sys2Proof/Machine/StressOps.lean ====
section
/-! DEFINITION. What the stress engine's rules share (chapter 08): readings, ramps, make-up, the ways
a test ends, suspension. -/

namespace Sys2Proof.Machine

/-! ## Readings (R140) -/

/-- The load of the latest jack sample the engine has handled, 0 before the first (R140, R146). -/
def Stress.latestLoad (e : Stress) : Nat := (e.latest.map JackView.load).getD 0

/-- The displacement of the latest jack sample the engine has handled (R140). -/
def Stress.latestDisp (e : Stress) : Int := (e.latest.map JackView.disp).getD 0

/-- Seconds since test start, rounded by R41 (R140). -/
def State.sinceStart (s : State) : Int := roundDiv ((s.now : Int) - (s.stress.start.getD 0 : Nat)) 1024

/-- The time of a reading recorded now: raised to that of the previous reading, at most 65535
(R140); a negative first one is a free value (log entry 14). -/
def State.readingTime (s : State) : Nat :=
  match s.stress.log.getLast? with
  | some r => min 65535 (max r.time s.sinceStart.toNat)
  | none =>
    if s.sinceStart < 0 then (Config.earlyReading s.sinceStart).toNat
    else min 65535 s.sinceStart.toNat

/-- A reading of the present step is appended to the log (R140). -/
def State.record (kind : ReadingKind) (load : Nat) (disp : Int) (s : State) : State :=
  { s with stress := { s.stress with
    log := s.stress.log ++ [⟨s.stress.step.getD 0, kind, s.readingTime, load, disp⟩] } }

/-- A reading of the latest jack sample (R140). -/
def State.recordLatest (kind : ReadingKind) (s : State) : State :=
  s.record kind s.stress.latestLoad s.stress.latestDisp

/-- The readings of a step and kind, in log order. -/
def Stress.readings (e : Stress) (step : Nat) (kind : ReadingKind) : List Reading :=
  e.log.filter fun r => r.step == step && r.kind == kind

/-! ## Steps and targets (R129, R135) -/

/-- Step i of the profile copy, 1..16. -/
def Stress.stepAt (e : Stress) (i : Nat) : Option Step := if i = 0 then none else e.steps[i - 1]?

/-- The target load T of step i. -/
def Stress.targetAt (e : Stress) (i : Nat) : Nat := if i = 0 then 0 else e.targets.getD (i - 1) 0

/-- The step being run. -/
def Stress.present (e : Stress) : Option Step := e.stepAt (e.step.getD 0)

/-- The number of the first step with a role, from number i on; 0 when there is none. -/
def roleIndexFrom (r : StepRole) : Nat → List Step → Nat
  | _, [] => 0
  | i, st :: rest => if st.role = r then i else roleIndexFrom r (i + 1) rest

/-- The number of the step with a role (R129). -/
def Stress.roleIndex (e : Stress) (r : StepRole) : Nat := roleIndexFrom r 1 e.steps

/-- A step's target load (R135). -/
def stepTarget (workLoad target : Nat) : Nat := roundDivNat (workLoad * target) 1000

/-! ## Jack outputs -/

/-- A duty is written when it differs from the output's set duty (R138). -/
def State.drive (v : Valve) (d : Nat) (s : State) : State :=
  if (s.outputs.get v).set = d then s else s.writeDuty .stress v d

/-- Both jack outputs are written 0. -/
def State.stopJack (s : State) : State :=
  (s.writeDuty .stress .jackAdvance 0).writeDuty .stress .jackRelease 0

/-! ## Ramps (R138) -/

/-- What a sample does to a ramp (R138). -/
inductive RampMove where
  | reached
  | toward (dir : RampDir) (v : Valve) (duty : Nat)
  deriving DecidableEq, Repr

/-- Going up: reached at or above T; approach duty from T - B on (R138). -/
def rampUp (c : Settings) (t : Int) (load : Nat) : RampMove :=
  if t ≤ load then .reached
  else .toward .up .jackAdvance (if t - c.approachBand ≤ load then c.approachDuty else c.rampDuty)

/-- Going down: reached at or below T; approach duty from T + B on (R138). -/
def rampDown (c : Settings) (t : Int) (load : Nat) : RampMove :=
  if (load : Int) ≤ t then .reached
  else .toward .down .jackRelease (if load ≤ t + c.approachBand then c.approachDuty else c.rampDuty)

/-- A ramp's move at a sample; the first sample decides an undecided direction (R138). -/
def rampMove (c : Settings) (dir : RampDir) (t : Int) (load : Nat) : RampMove :=
  match dir with
  | .up => rampUp c t load
  | .down => rampDown c t load
  | .undecided =>
    if (load : Int) < t then rampUp c t load
    else if t < load then rampDown c t load
    else .reached

/-- The engine enters STEP_RAMP for step i with the direction undecided (R136, R142, R147). DESIGN
CHOICE: the hold start and the extended flag of the step before stay until R138 writes them (log
entry 39). -/
def State.startRamp (i : Nat) (s : State) : State :=
  { s with stress := { s.stress with state := .stepRamp, step := some i, dir := .undecided } }

/-! ## Make-up (R139, R146) -/

/-- A running make-up is ended (R139, R147). -/
def State.endMakeUp (s : State) : State :=
  if s.stress.makingUp then
    State.writeDuty .stress .jackAdvance 0 { s with stress := { s.stress with makingUp := false } }
  else s

/-- The make-up rule on a sample's load, for the level held (R139, R146). -/
def State.makeUp (level load : Nat) (s : State) : State :=
  if s.stress.makingUp then
    if level ≤ load then s.endMakeUp else s
  else if (load : Int) < (level : Int) - s.settings.makeUpBand then
    State.writeDuty .stress .jackAdvance s.settings.approachDuty
      { s with stress := { s.stress with
        makingUp := true, makeUps := satSucc 65535 s.stress.makeUps } }
  else s

/-! ## The register's transitions for the stress engine (R14, R16) -/

/-- The test part, created if it does not yet exist (R7). -/
def Anchor.testPart (a : Anchor) : TestPart := a.test.getD ⟨0, .accepted, none, none, none, none⟩

/-- Whether a code is an abort code (R7). -/
def TestCode.isAbort : TestCode → Bool
  | .accepted | .lockoffDeviation | .lockoffIncomplete | .creepFail | .lengthFail
  | .lengthIndeterminate => false
  | _ => true

/-- The register's abort transition (R14). -/
def Anchor.testAborted (code : TestCode) (counted : Bool) (creep : Option Int) (a : Anchor) :
    Anchor :=
  if a.state = .testing then
    { a with
      state := a.returnState
      work := none
      test := some { a.testPart with
        count := if counted then a.testPart.count + 1 else a.testPart.count
        last := code, creep := creep, lApp := none } }
  else a

/-- The register's evaluated-end transition, for the record (R16). -/
def Anchor.testEvaluated (result : TestCode) (creep : Option Int) (lApp : Option Nat) (a : Anchor) :
    Anchor :=
  { a with
    state := .recording
    work := none
    test := some { a.testPart with
      count := a.testPart.count + 1, last := result, creep := creep, lApp := lApp, index := none } }

/-- The record of the engine's anchor, while it is TESTING (R10). -/
def State.testedAnchor (s : State) : Option Anchor :=
  match s.stress.anchor.bind s.register.find with
  | some a => if a.state = .testing then some a else none
  | none => none

/-- The L_app the engine hands over, when the test reached it (R7, R16). -/
def Stress.lApp (e : Stress) : Option Nat := e.lengths.map LengthFigures.lApp

/-- The evaluated-end transition: the record to RECORDING, the slot filled, the append asked, in
one change (R16). -/
def State.evaluatedEnd (result : TestCode) (s : State) : State :=
  match s.testedAnchor with
  | none => s
  | some a =>
    let record := certificateRecord s.stress a result (a.testPart.count + 1) s.nowSeconds
    { s with
      register :=
        { s.register.modify a.pos
            (Anchor.testEvaluated result s.stress.creepFigure s.stress.lApp) with
          slot := some ⟨record, a.pos, a.testPart.count + 1, result, s.stress.lock.residual⟩ }
      journal := s.journal.ask .certificate record .register }

/-- The abort transition for the engine's anchor (R14). -/
def State.abortedEnd (code : TestCode) (counted : Bool) (s : State) : State :=
  match s.stress.anchor with
  | some p => s.modifyAnchor p (Anchor.testAborted code counted s.stress.creepFigure)
  | none => s

/-! ## Ends (R148, R149) -/

/-- The engine returns to IDLE and lets go of its anchor (R132). DESIGN CHOICE: what R132 names neither
as kept nor as cleared, such as the step index and the hold start, stays (log entry 38). -/
def Stress.letGo (e : Stress) : Stress :=
  { e with
    state := .idle, anchor := none, design := none, accepted := false, pendingEnd := none,
    tripWait := false, makingUp := false, suspension := none }

/-- The test ends with a code: outputs 0, the register told, IDLE, TEST_END (R149, R164). -/
def State.endTest (code : TestCode) (counted : Bool) (s : State) : State :=
  let t := s.stopJack
  let u := if code.isAbort then t.abortedEnd code counted else t.evaluatedEnd code
  State.raise .testEnd { u with stress := u.stress.letGo }

/-- An abort in WAIT_FLOW: the claim released, the test ended at once (R148, R149). -/
def State.endWaiting (code : TestCode) (counted : Bool) (s : State) : State :=
  (s.releaseFlow .stress).endTest code counted

/-- The engine enters UNLOADING with a pending end (R148). -/
def State.enterUnloading (code : TestCode) (s : State) : State :=
  let t := ((s.removeStressMarks).writeDuty .stress .jackAdvance 0).releaseFlow .stress
  let u := { t with stress := { t.stress with
    state := .unloading, makingUp := false, suspension := none, pendingEnd := some code } }
  if s.stress.tripWait then u else u.writeDuty .stress .jackRelease u.settings.rampDuty

/-- A test before acceptance aborts: at once in WAIT_FLOW, by unloading otherwise (R148). -/
def State.abortTest (code : TestCode) (s : State) : State :=
  if s.stress.state = .waitFlow then s.endWaiting code true else s.enterUnloading code

/-- A sample while the jack is released, in UNLOADING and FINAL_RELEASE (R149, R164). -/
def State.releaseSample (load : Nat) (s : State) : State :=
  if load ≤ s.settings.approachBand then
    match s.stress.pendingEnd with
    | some code => s.endTest code true
    | none => s
  else if s.stress.tripWait then s
  else s.drive .jackRelease s.settings.rampDuty

/-! ## Suspension (R146) -/

/-- The engine enters SUSPENDED with a resume kind (R146). DESIGN CHOICE: the ramp direction is left as it
was (log entry 43). -/
def State.suspend (k : ResumeKind) (s : State) : State :=
  let t := s.stopJack
  State.raise .testSuspended
    (State.insertMark (.suspension (t.stress.step.getD 0))
      (afterSeconds t.now t.settings.suspensionLimit)
      { t with stress := { t.stress with
        state := .suspended
        suspension := some ⟨t.stress.latestLoad, k⟩
        makingUp := false
        suspensions := satSucc 255 t.stress.suspensions } })

/-- Whether the wall is quiet for the anchor under test (R144). -/
def State.testQuiet (s : State) : Bool :=
  match s.stress.anchor with
  | some p => s.wallQuiet p.panel
  | none => true

end Sys2Proof.Machine
end

