-- ==== Sys2Proof/Machine/LockOff.lean ====
section
/-! DEFINITION. The acceptance arithmetic and the lock-off (chapter 09). -/

namespace Sys2Proof.Machine

/-! ## The apparent free length (R156, R157) -/

/-- The last STEP_END reading of a step (R140). -/
def Stress.stepEnd (e : Stress) (i : Nat) : Option Reading := (e.readings i .stepEnd).getLast?

/-- The load of a step end, 0 when there is none. -/
def Stress.endLoad (e : Stress) (i : Nat) : Int := ((e.stepEnd i).map fun r => (r.load : Int)).getD 0

/-- The displacement of a step end, 0 when there is none. -/
def Stress.endDisp (e : Stress) (i : Nat) : Int := ((e.stepEnd i).map Reading.disp).getD 0

/-- Whether the figures can give a free length: Delta P at least 100 and Delta s_e above 0
(R156). -/
def lengthDeterminate (deltaP deltaS : Int) : Bool := 100 ≤ deltaP && 0 < deltaS

/-- L_app of the figures: the quotient rounded once and clamped at 65535, or 0 when it is not
formed (R156). -/
def apparentLength (d : Design) (deltaP deltaS : Int) : Nat :=
  if lengthDeterminate deltaP deltaS then
    min 65535 (roundDivNat (d.tendonArea * d.modulus * deltaS.toNat) (100 * deltaP.toNat))
  else 0

/-- The length figures of a test's reading log (R156). -/
def Stress.lengthFigures (e : Stress) (d : Design) : LengthFigures :=
  let datum := e.roleIndex .datum
  let peak := e.roleIndex .peak
  let ret := e.roleIndex .ret
  let deltaP := e.endLoad peak - e.endLoad datum
  let deltaS := e.endDisp peak - e.endDisp ret
  { datumLoad := e.endLoad datum, peakLoad := e.endLoad peak, sPeak := e.endDisp peak,
    sPerm := e.endDisp ret, deltaP := deltaP, deltaS := deltaS, lApp := apparentLength d deltaP deltaS }

/-- Whether L_app passes: within round(L_free 9 / 10) .. L_free + round(L_bond / 2) (R157). -/
def lengthPasses (d : Design) (l : Nat) : Bool :=
  roundDivNat (d.freeLength * 9) 10 ≤ l && l ≤ d.freeLength + roundDivNat d.bondLength 2

/-- The acceptance of the test (R157). -/
def State.acceptTest (s : State) : State :=
  { s with stress := { s.stress with
    accepted := true
    state := .lockRamp
    dir := .undecided
    lock := { s.stress.lock with
      target := some (s.stress.pLock.getD 0 : Nat), retries := 0, notLifted := false } } }

/-- The apparent free length is evaluated: acceptance, or UNLOADING with a length result (R156,
R157). -/
def State.evaluateLength (s : State) : State :=
  match s.stress.design with
  | none => s
  | some d =>
    let l := s.stress.lengthFigures d
    let t := { s with stress := { s.stress with lengths := some l } }
    if !lengthDeterminate l.deltaP l.deltaS then t.enterUnloading .lengthIndeterminate
    else if !lengthPasses d l.lApp then t.enterUnloading .lengthFail
    else t.acceptTest

/-! ## Ending the lock-off (R164) -/

/-- The lock-off ends with a result: FINAL_RELEASE (R164). -/
def State.endLockOff (result : TestCode) (s : State) : State :=
  let t := (((s.removeStressMarks).unsetCompare).writeDuty .stress .jackAdvance 0).releaseFlow
    .stress
  let u := { t with stress := { t.stress with
    state := .finalRelease
    pendingEnd := some result
    tripWait := t.supply.latched
    lock := { t.stress.lock with hold := .none, result := some result } } }
  if u.stress.tripWait then u else u.writeDuty .stress .jackRelease u.settings.rampDuty

/-! ## The lift (R162, R163) -/

/-- The lock-off tolerance band (R163). -/
def State.lockBand (s : State) : Nat :=
  roundDivNat (s.stress.pLock.getD 0 * s.settings.lockTolerance) 1000

/-- The not-lifted limit (R162). -/
def State.liftLimit (s : State) : Nat :=
  roundDivNat (s.stress.pLock.getD 0 * (1000 + 2 * s.settings.lockTolerance)) 1000

/-- Whether a residual is within tolerance of P_lock (R163). -/
def State.withinBand (residual : Nat) (s : State) : Bool :=
  ((residual : Int) - (s.stress.pLock.getD 0 : Nat)).natAbs ≤ s.lockBand

/-- The retry's lock target: min(peak T, P_lock + (P_lock - residual)) (R163). -/
def State.retryTarget (residual : Nat) (s : State) : Int :=
  min (s.stress.targetAt (s.stress.roleIndex .peak) : Int)
    ((s.stress.pLock.getD 0 : Nat) + ((s.stress.pLock.getD 0 : Nat) - (residual : Int)))

/-- The retry begins: LOCK_RAMP to the retry target (R163). -/
def State.retryLock (residual : Nat) (s : State) : State :=
  { s with stress := { s.stress with
    state := .lockRamp
    dir := .undecided
    lock := { s.stress.lock with retries := 1, target := some (s.retryTarget residual) } } }

/-- A lift is decided (R163). -/
def State.decideLift (residual : Nat) (s : State) : State :=
  if s.withinBand residual then s.endLockOff .accepted
  else if s.stress.lock.retries = 0 then s.retryLock residual
  else s.endLockOff .lockoffDeviation

/-- The residual and the not-lifted flag of a lift, with its LIFT reading (R161, R162). -/
def State.recordLift (load : Nat) (disp : Int) (notLifted : Bool) (s : State) : State :=
  let t := s.record .lift load disp
  { t with stress := { t.stress with
    lock := { t.stress.lock with residual := some load, notLifted := notLifted } } }

/-- The stress engine handles a lift-off capture (R161). DESIGN CHOICE: one that reaches it in lock-off
hold TRIP or FLOW changes nothing, over-range or not (log entry 46). -/
def State.stressCapture (x : Sample) (s : State) : State :=
  if s.stress.state = .liftCheck ∧ s.stress.lock.hold = .none then
    if x.saturated then State.raise .channelTrip (s.endLockOff .lockoffIncomplete)
    else
      State.decideLift x.load
        (State.recordLift x.load (s.stress.lock.point.getD 0) false
          (s.writeDuty .stress .jackAdvance 0))
  else s

/-- A capture delivery. -/
def Delivery.captureOf : Delivery → Option Sample
  | .capture x => some x
  | _ => none

/-- LIFT_OFF_CAPTURE (R55, R161). -/
def onLiftOffCapture (s : State) : Host.Outcome State Fault Refusal :=
  .next <| s.whenPowered fun s => s.deliverKind Delivery.captureOf fun x t => t.stressCapture x

/-! ## The phases (R159, R160, R162) -/

/-- SEATING begins: seat mark inserted no, JACK_RELEASE at the ramp duty (R159, R167). -/
def State.beginSeating (s : State) : State :=
  State.writeDuty .stress .jackRelease s.settings.rampDuty
    { s with stress := { s.stress with
      state := .seating, lock := { s.stress.lock with seatInserted := false } } }

/-- The lock target is reached: a LOCK reading, s_lock, SEATING (R159). DESIGN CHOICE: the ramp
direction is left as it was (log entry 43). -/
def State.lockReached (s : State) : State :=
  let t := s.stopJack.recordLatest .lock
  State.beginSeating { t with stress := { t.stress with
    lock := { t.stress.lock with sLock := some t.stress.latestDisp } } }

/-- A sample in LOCK_RAMP (R159). -/
def State.lockRampSample (load : Nat) (s : State) : State :=
  match rampMove s.settings s.stress.dir (s.stress.lock.target.getD 0) load with
  | .reached => s.lockReached
  | .toward dir v d => State.drive v d { s with stress := { s.stress with dir := dir } }

/-- A sample in SEATING (R160). -/
def State.seatingSample (load : Nat) (s : State) : State :=
  if s.stress.lock.seatInserted then s
  else if load ≤ s.settings.approachBand then
    let t := s.writeDuty .stress .jackRelease 0
    State.insertMark (.seat (t.stress.step.getD 0)) (afterSeconds t.now t.settings.seatTime)
      { t with stress := { t.stress with lock := { t.stress.lock with seatInserted := true } } }
  else s.drive .jackRelease s.settings.rampDuty

/-- A sample in LIFT_CHECK: the guard against a head that does not lift (R162). -/
def State.liftSample (v : JackView) (s : State) : State :=
  if s.liftLimit < v.load then
    State.decideLift v.load
      (State.recordLift v.load v.disp true ((s.writeDuty .stress .jackAdvance 0).unsetCompare))
  else s

/-- A jack sample that passed the checks, in LOCK_RAMP, SEATING or LIFT_CHECK with the lock-off
hold NONE (R159, R160, R162). -/
def State.lockSample (v : JackView) (s : State) : State :=
  if s.stress.lock.hold = .none then
    match s.stress.state with
    | .lockRamp => s.lockRampSample v.load
    | .seating => s.seatingSample v.load
    | .liftCheck => s.liftSample v
    | _ => s
  else s

/-- LIFT_CHECK begins at the compare point: the compare set, JACK_ADVANCE at the approach duty
(R160, R167). -/
def State.beginLift (s : State) : State :=
  State.writeDuty .stress .jackAdvance s.settings.approachDuty
    (State.setCompare (s.stress.lock.point.getD 0)
      { s with stress := { s.stress with state := .liftCheck } })

/-- The stress engine handles the expiry of its SEAT mark (R160). -/
def State.stressSeat (s : State) : State :=
  if s.stress.state = .seating then
    let t := s.recordLatest .seat
    State.beginLift { t with stress := { t.stress with
      lock := { t.stress.lock with
        sSeat := some t.stress.latestDisp
        drawIn := some (t.stress.lock.sLock.getD 0 - t.stress.latestDisp)
        point := some (t.stress.lock.sLock.getD 0 + t.settings.liftTravel) } } }
  else s

/-! ## Trips during the lock-off (R166, R167) -/

/-- A trip freezes the lock-off in its phase (R166). -/
def State.freezeLock (s : State) : State :=
  let t := s.removeStressMarks.unsetCompare
  { t with stress := { t.stress with
    tripWait := true, lock := { t.stress.lock with hold := .trip, seatInserted := false } } }

/-- The clear: trip wait no, lock-off hold FLOW, the flow claimed again (R167). -/
def State.reclaimLock (s : State) : State :=
  State.claimFlow .stress { s with stress := { s.stress with
    tripWait := false, lock := { s.stress.lock with hold := .flow } } }

/-- A grant in lock-off hold FLOW: the phase begins again from its start (R167). -/
def State.resumeLock (s : State) : State :=
  let t := { s with stress := { s.stress with lock := { s.stress.lock with hold := .none } } }
  match s.stress.state with
  | .lockRamp => { t with stress := { t.stress with dir := .undecided } }
  | .seating => t.beginSeating
  | .liftCheck => t.beginLift
  | _ => t

/-- Whether the engine stands in one of the three lock-off phases. -/
def StressState.inLock : StressState → Bool
  | .lockRamp => true | .seating => true | .liftCheck => true | _ => false

end Sys2Proof.Machine
end

