-- ==== Sys2Proof/Machine/Stress.lean ====
section
/-! DEFINITION. The stress engine (chapter 08): its requests, samples, marks, wall, trips, faults; and
the commands of the measurement unit that reach it. -/

namespace Sys2Proof.Machine

/-! ## START_TEST (R134, R135) -/

/-- A profile of the settings in force; `none`: undefined (R129). -/
def Settings.profile (c : Settings) : Nat → Option (List Step)
  | 1 => c.profile1 | 2 => c.profile2 | 3 => c.profile3 | 4 => c.profile4 | _ => none

/-- The remaining hours to the cure of an anchor; `none`: cured (R18). -/
def Anchor.hoursToCure (cureHours now : Nat) (a : Anchor) : Option Nat :=
  match a.grout.bind GroutPart.endTime with
  | none => some cureHours
  | some t => if t + 3600 * cureHours ≤ now then none
    else some (ceilDiv (t + 3600 * cureHours - now) 3600)

/-- The target of the PEAK step of a profile (R129). -/
def peakTarget (steps : List Step) : Nat :=
  ((steps.find? fun st => st.role == .peak).map Step.target).getD 0

/-- The pressure a load requires (R134). -/
def requiredPressure (c : Settings) (load : Nat) : Nat :=
  roundDivNat (load * 10000000) (c.ramArea * c.efficiency)

/-- The required pressure of the PEAK load of an anchor under a profile (R134). -/
def peakPressure (c : Settings) (d : Design) (steps : List Step) : Nat :=
  requiredPressure c (stepTarget d.workLoad (peakTarget steps))

/-- The lock-off load of a design (R88, R135). -/
def Design.lockLoad (d : Design) : Nat := roundDivNat (d.workLoad * d.lockRatio) 1000

/-- The tests an anchor has behind it (R7). -/
def Anchor.testCount (a : Anchor) : Nat := a.testPart.count

/-- The step targets of a test (R135). -/
def stepTargets (d : Design) (steps : List Step) : List Nat :=
  steps.map fun st => stepTarget d.workLoad st.target

/-- The engine at an accepted START_TEST (R135, R158; log entry 20). -/
def Stress.started (a : Anchor) (steps : List Step) (now : SiteTime) : Stress :=
  { Stress.atStartUp with
    state := .waitFlow
    anchor := some a.pos
    design := some a.design
    profileNo := some a.design.profile
    steps := steps
    targets := stepTargets a.design steps
    pLock := some a.design.lockLoad
    start := some now
    step := some 1 }

/-- The change of an accepted START_TEST (R135). -/
def State.startTest (a : Anchor) (steps : List Step) (s : State) : State :=
  State.claimFlow .stress
    { s with
      register := s.register.modify a.pos
        (Anchor.startWork .testing .test (some a.state) s.nowSeconds)
      stress := Stress.started a steps s.now
      meas := { s.meas with ramStart := s.meas.ram.count, ramDatum := none } }

/-- The checks on the wall and the supply, the last of START_TEST (R86, R87, R88, R134). -/
def decideTestPermit (a : Anchor) (steps : List Step) (s : State) : Decision :=
  if s.register.panelHolds a.pos.panel .grouting then refuse .panelBusy s
  else
    match s.panelHeld a.pos.panel with
    | some q => refuseWith .panelHeld (enc8 q ++ enc8 (panelAt s.panels q).state.code) s
    | none =>
      match s.imbalanced a.pos.panel a.design.lockLoad with
      | some q =>
        refuseWith .imbalance (enc8 q ++ enc32 (s.imbalance a.pos.panel a.design.lockLoad q)) s
      | none =>
        if s.supply.latched then refuse .tripped s
        else
          .reply .ok
            (enc8 steps.length ++ (stepTargets a.design steps).flatMap enc16 ++
              enc16 a.design.lockLoad)
            (s.startTest a steps)

/-- The checks on the profile and the jack (R134). -/
def decideTestProfile (a : Anchor) (s : State) : Decision :=
  match s.settings.profile a.design.profile with
  | none => refuseWith .noProfile (enc8 a.design.profile) s
  | some steps =>
    if s.settings.jackMax < peakPressure s.settings a.design steps then
      refuseWith .overCapacity (enc32 (peakPressure s.settings a.design steps)) s
    else decideTestPermit a steps s

/-- START_TEST as the stress engine decides it, its checks in order (R134, R135). -/
def decideStartTest (ps : List Byte) (s : State) : Decision :=
  if ps.length ≠ 3 then refuse .badForm s
  else if !(positionAt ps 0).valid then refuse .outOfRange s
  else
    match s.register.find (positionAt ps 0) with
    | none => refuse .noAnchor s
    | some a =>
      if a.state ≠ .grouted ∧ a.state ≠ .failed then refuse .wrongState s
      else if 4 ≤ a.testCount then refuse .limit s
      else if s.stress.state ≠ .idle then refuse .engineBusy s
      else if s.journal.state = .appending then refuse .journalBusy s
      else if s.journal.state = .fault then refuse .journalFault s
      else if s.journal.room < Config.certificateRoom then
        refuseWith .journalFull (enc32 s.journal.room) s
      else if !s.clock.running then refuse .noTime s
      else
        match a.hoursToCure s.settings.curePeriod s.nowSeconds with
        | some h => refuseWith .groutYoung (enc16 h) s
        | none => decideTestProfile a s

/-- START_TEST (R134, R135). -/
def onStartTest (p : PortNo) (form : List Byte) (s : State) : Host.Outcome State Fault Refusal :=
  submit p 0x20 form .console false decideStartTest s

/-! ## ABORT_TEST (R150) -/

/-- ABORT_TEST as the stress engine decides it (R150). -/
def decideAbortTest (ps : List Byte) (s : State) : Decision :=
  if ps.length ≠ 0 then refuse .badForm s
  else
    match s.stress.state with
    | .idle => refuse .wrongState s
    | .waitFlow | .stepRamp | .stepHold | .suspended => .reply .ok [] (s.abortTest .abortedConsole)
    | .lockRamp | .seating | .liftCheck | .finalRelease => refuse .late s
    | .unloading =>
      match s.stress.pendingEnd with
      | some code => refuse (if code.isAbort then .wrongState else .late) s
      | none => refuse .wrongState s

/-- ABORT_TEST (R150). -/
def onAbortTest (p : PortNo) (form : List Byte) (s : State) : Host.Outcome State Fault Refusal :=
  submit p 0x21 form .console false decideAbortTest s

/-! ## Grants, trips, clears, encoder faults (R136, R151, R152, R166, R167) -/

/-- A grant reaches the stress engine (R136, R167). -/
def State.stressGrant (s : State) : State :=
  if s.stress.state = .waitFlow then
    if s.testQuiet then s.startRamp 1 else s.suspend .ramp
  else if s.stress.state.inLock ∧ s.stress.lock.hold = .flow then s.resumeLock
  else s

/-- Trip wait set or cleared. -/
def State.setTripWait (b : Bool) (s : State) : State :=
  { s with stress := { s.stress with tripWait := b } }

/-- The stress engine handles a trip, told by notice or by a claim refused as TRIPPED (R136, R151,
R166). -/
def State.stressTrip (s : State) : State :=
  match s.stress.state with
  | .idle => s
  | .waitFlow => s.endWaiting .abortedTrip false
  | .stepRamp | .stepHold | .suspended => (s.setTripWait true).enterUnloading .abortedTrip
  | .lockRamp | .seating | .liftCheck => if s.stress.lock.hold = .trip then s else s.freezeLock
  | .unloading | .finalRelease => s.setTripWait true

/-- The stress engine handles the clear: with trip wait no it does nothing (R151, R167). -/
def State.stressClear (s : State) : State :=
  if s.stress.tripWait then
    match s.stress.state with
    | .unloading | .finalRelease =>
      (s.setTripWait false).writeDuty .stress .jackRelease s.settings.rampDuty
    | .lockRamp | .seating | .liftCheck => s.reclaimLock
    | _ => s.setTripWait false
  else s

/-- The stress engine handles a ram encoder fault (R152, R164). -/
def State.stressEncoderFault (s : State) : State :=
  match s.stress.state with
  | .idle | .unloading | .finalRelease => s
  | .waitFlow | .stepRamp | .stepHold | .suspended => s.abortTest .abortedEncoder
  | .lockRamp | .seating | .liftCheck => s.endLockOff .lockoffIncomplete

/-! ## Ramps and holds (R138, R139) -/

/-- Whether a creep step needs a mark at the extended point (R138). -/
def Step.extendedMark (st : Step) : Bool := st.creep && st.ext != 0 && st.ext / 10 < st.hold

/-- The CREEP marks of a hold that starts at a time (R138). -/
def State.insertCreepMarks (i : Nat) (st : Step) (t : SiteTime) (s : State) : State :=
  let u := if st.creep then s.insertMark (.creep i .base) (afterSeconds t (st.hold / 10)) else s
  if st.extendedMark then u.insertMark (.creep i .extended) (afterSeconds t (st.ext / 10)) else u

/-- The marks of a hold (R138). -/
def State.insertHoldMarks (i : Nat) (st : Step) (t : SiteTime) (s : State) : State :=
  (s.insertMark (.holdEnd i) (afterSeconds t st.hold)).insertCreepMarks i st t

/-- A step's target is reached: both outputs 0, STEP_HOLD, the hold's marks (R138). DESIGN CHOICE: the
ramp direction is left as it was (log entry 43). -/
def State.reachTarget (s : State) : State :=
  let t := s.stopJack
  let u := { t with stress := { t.stress with
    state := .stepHold, holdStart := some t.now, extended := false, makingUp := false } }
  match u.stress.present with
  | some st => u.insertHoldMarks (u.stress.step.getD 0) st u.now
  | none => u

/-- A sample in STEP_RAMP (R138). -/
def State.rampSample (load : Nat) (s : State) : State :=
  match rampMove s.settings s.stress.dir (s.stress.targetAt (s.stress.step.getD 0) : Nat) load with
  | .reached => s.reachTarget
  | .toward dir v d => State.drive v d { s with stress := { s.stress with dir := dir } }

/-! ## Jack samples (R137, R149, R164) -/

/-- A limit check that a sample fails: the abort code, and whether it is a channel trip (R137). -/
def State.limitFailed (v : JackView) (s : State) : Option (TestCode × Bool) :=
  if v.saturated then some (.abortedOverrange, true)
  else if s.settings.jackMax < v.pressure then some (.abortedOverpressure, true)
  else if s.settings.ramStroke * 100 < v.travel.natAbs then some (.abortedStroke, false)
  else none

/-- CHANNEL_TRIP raised, when a stop is a channel trip (R137, R164). -/
def State.raiseIf (b : Bool) (e : Event) (s : State) : State := if b then s.raise e else s

/-- A sample that passed the checks before acceptance (R138, R139, R146). -/
def State.scheduleSample (v : JackView) (s : State) : State :=
  match s.stress.state with
  | .stepRamp => s.rampSample v.load
  | .stepHold => s.makeUp (s.stress.targetAt (s.stress.step.getD 0)) v.load
  | .suspended => s.makeUp ((s.stress.suspension.map Suspension.load).getD 0) v.load
  | _ => s

/-- The stress engine handles a jack sample that it has kept (R137, R149, R164). -/
def State.actOnSample (v : JackView) (s : State) : State :=
  match s.stress.state with
  | .idle => s
  | .waitFlow | .stepRamp | .stepHold | .suspended =>
    match s.limitFailed v with
    | some r => (s.abortTest r.1).raiseIf r.2 .channelTrip
    | none => s.scheduleSample v
  | .lockRamp | .seating | .liftCheck =>
    match s.limitFailed v with
    | some r => (s.endLockOff .lockoffIncomplete).raiseIf r.2 .channelTrip
    | none => s.lockSample v
  | .finalRelease | .unloading => s.releaseSample v.load

/-- The stress engine handles a jack sample: it keeps the sample, unless it is IDLE, and acts on it
(R132, R137). -/
def State.stressSample (v : JackView) (s : State) : State :=
  if s.stress.state = .idle then s
  else State.actOnSample v { s with stress := { s.stress with latest := some v } }

/-- What a jack sample hands to the stress engine (R46, R51). -/
def State.jackView (x : Sample) (s : State) : JackView :=
  ⟨x.value, x.load, x.saturated, s.displacement, s.travel⟩

/-- JACK_SAMPLE: the unit keeps the sample and hands it to the stress engine (R43, R45, R46, R51,
R137). -/
def onJackSample (code : BitVec 12) (s : State) : Host.Outcome State Fault Refusal :=
  .next <| s.whenPowered fun s =>
    State.stressSample (s.jackView (s.jackSampleOf code))
      { s with meas := { s.meas with jack := some (s.jackSampleOf code) } }

/-! ## Count steps (R48, R49, R55) -/

/-- An encoder fault is raised and handed to the engine that uses the encoder (R49). -/
def State.encoderFault (enc : Encoder) (s : State) : State :=
  match enc with
  | .drum => (s.raise .encoderFault).winchEncoderFault
  | .ram => (s.raise .encoderFault).stressEncoderFault

/-- An encoder is seen at a new pair (R48, R49, R55). -/
def State.countStep (enc : Encoder) (pair : PhasePair) (s : State) : State :=
  let t := { s with meas := s.meas.moveEncoder enc pair }
  match phaseMove (s.meas.encoder enc).pair pair, enc with
  | .fault, _ => t.encoderFault enc
  | .up, .ram => t.checkCompare
  | _, _ => t

/-- COUNT_STEP (R48, R49, R55). -/
def onCountStep (enc : Encoder) (pair : PhasePair) (s : State) :
    Host.Outcome State Fault Refusal :=
  .next <| s.whenPowered fun s => s.countStep enc pair

/-! ## Progression and suspension (R142, R145, R147) -/

/-- The progression of the present step (R142). -/
def State.progress (s : State) : State :=
  if (s.stress.present.map Step.role) = some .ret then
    if s.testQuiet then s.evaluateLength else s.suspend .evaluate
  else if s.testQuiet then s.startRamp (s.stress.step.getD 0 + 1)
  else s.suspend .nextStep

/-- A suspended test resumes by its resume kind (R147). -/
def State.resumeTest (s : State) : State :=
  let i := s.stress.step.getD 0
  let t := (s.removeMark (.suspension i)).endMakeUp
  let u := { t with stress := { t.stress with suspension := none } }
  match s.stress.suspension.map Suspension.resume with
  | some .ramp => u.startRamp i
  | some .nextStep => u.startRamp (i + 1)
  | some .evaluate => u.evaluateLength
  | none => u

/-- Whether a panel is one of the three that concern the engine's test (R145). -/
def State.concernsTest (panel : Nat) (s : State) : Bool :=
  match s.stress.anchor with
  | some p => panel + 1 == p.panel || panel == p.panel || panel == p.panel + 1
  | none => false

/-- The stress engine handles a panel change (R145). -/
def State.stressPanelChange (panel : Nat) (s : State) : State :=
  if s.concernsTest panel then
    match s.stress.state with
    | .stepRamp => if s.testQuiet then s else s.suspend .ramp
    | .suspended => if s.testQuiet then s.resumeTest else s
    | _ => s
  else s

/-- A panel change delivery. -/
def Delivery.panelOf : Delivery → Option Nat
  | .panelChange n _ _ => some n
  | _ => none

/-- PANEL_CHANGE_DELIVERY (R80, R145). -/
def onPanelChangeDelivery (s : State) : Host.Outcome State Fault Refusal :=
  .next <| s.whenPowered fun s => s.deliverKind Delivery.panelOf fun n t => t.stressPanelChange n

/-- The SUSPENSION mark expires: ABORTED_WALL (R147). -/
def State.stressSuspension (s : State) : State :=
  if s.stress.state = .suspended then s.abortTest .abortedWall else s

/-! ## Creep marks and hold ends (R141, R142, R143, R154, R155) -/

/-- The stress engine handles a CREEP mark of a step (R141). DESIGN CHOICE: one that clamped due times
leave behind its HOLD_END mark expires outside STEP_HOLD on that step, and changes nothing (log
entry 45). -/
def State.stressCreep (i : Nat) (s : State) : State :=
  if s.stress.state = .stepHold ∧ s.stress.step = some i then s.recordLatest .mark else s

/-- The displacement of a reading of a step, or a free value when the log does not hold it (log
entry 10). -/
def dispOf (i : Nat) (r : Option Reading) : Int := (r.map Reading.disp).getD (Config.missingReading i)

/-- The creep figure of a step: its first STEP_END less its base-point MARK (R154). -/
def Stress.alpha (e : Stress) (i : Nat) : Int :=
  dispOf i (e.readings i .stepEnd)[0]? - dispOf i (e.readings i .mark)[0]?

/-- The reading at the extended point: the second MARK, or the first STEP_END when H_ext / 10
equals H (R143, R155). -/
def Stress.extendedPoint (e : Stress) (i : Nat) (st : Step) : Option Reading :=
  if st.extendedMark then (e.readings i .mark)[1]? else (e.readings i .stepEnd)[0]?

/-- The extended creep figure of a step (R155). -/
def Stress.alphaExt (e : Stress) (i : Nat) (st : Step) : Int :=
  dispOf i (e.readings i .stepEnd)[1]? - dispOf i (e.extendedPoint i st)

/-- A creep entry goes to the creep list, and a figure becomes the one to hand over (R154, R155). -/
def State.addCreep (e : CreepEntry) (s : State) : State :=
  { s with stress := { s.stress with
    creep := s.stress.creep ++ [e], creepFigure := some (e.alphaExt.getD e.alpha) } }

/-- A creep figure is judged: the progression, or CREEP_FAIL (R142, R143). -/
def State.judgeCreep (figure : Int) (s : State) : State :=
  if figure ≤ s.settings.creepLimit then s.progress else s.enterUnloading .creepFail

/-- The hold of a creep step is extended (R142, R154). -/
def State.extendHold (i : Nat) (st : Step) (alpha : Int) (s : State) : State :=
  State.insertMark (.holdEnd i) (afterSeconds (s.stress.holdStart.getD 0) st.ext)
    { s with stress := { s.stress with extended := true, creepFigure := some alpha } }

/-- The end of a hold, its STEP_END being recorded, of step i (R142, R143). DESIGN CHOICE: the creep
list's alpha of an extended step is formed anew from the log at the end of the extended hold (log entry
47). -/
def State.afterHold (i : Nat) (st : Step) (s : State) : State :=
  if !st.creep then s.progress
  else if s.stress.extended then
    State.judgeCreep (s.stress.alphaExt i st)
      (s.addCreep ⟨i, s.stress.alpha i, some (s.stress.alphaExt i st)⟩)
  else if s.settings.creepLimit < s.stress.alpha i ∧ st.ext ≠ 0 then
    s.extendHold i st (s.stress.alpha i)
  else State.judgeCreep (s.stress.alpha i) (s.addCreep ⟨i, s.stress.alpha i, none⟩)

/-- The STEP_END reading; for the DATUM step the datum count is set first and the reading carries
displacement 0 (R140, R142). -/
def State.recordStepEnd (st : Step) (s : State) : State :=
  if st.role = .datum then
    State.record .stepEnd s.stress.latestLoad 0
      { s with meas := { s.meas with ramDatum := some s.meas.ram.count } }
  else s.recordLatest .stepEnd

/-- The stress engine handles the HOLD_END mark of a step (R142, R143). -/
def State.stressHoldEnd (i : Nat) (s : State) : State :=
  if s.stress.state = .stepHold ∧ s.stress.step = some i then
    match s.stress.stepAt i with
    | some st => State.afterHold i st (s.endMakeUp.recordStepEnd st)
    | none => s
  else s

end Sys2Proof.Machine
end

