-- ==== Sys2Proof/Machine/Expiry.lean ====
section
/-! DEFINITION. The expiry of marks (R33, R39): what each owner makes of one, the nine expiry commands,
and the expiry at once of every mark that is due. -/

namespace Sys2Proof.Machine

/-- The owner of a mark handles its expiry (R79, R100, R110, R115, R124, R141, R142, R147, R160). -/
def State.expired (n : MarkName) (s : State) : State :=
  match n with
  | .staleness panel => s.changePanel panel .stale
  | .expiry id => s.removeBatch id
  | .jam => s.winchJam
  | .coldJoint => s.groutColdJoint
  | .refusal => s.groutRefusal
  | .holdEnd i => s.stressHoldEnd i
  | .seat _ => s.stressSeat
  | .creep i _ => s.stressCreep i
  | .suspension _ => s.stressSuspension

/-- The head expires when site time has reached its due time and a command accepts its name: it leaves
the list and its owner handles the expiry (R39). Otherwise nothing happens (log entry 6). -/
def State.expireHead (accepts : MarkName → Bool) (s : State) : State :=
  match s.marks with
  | [] => s
  | m :: rest =>
    if m.due ≤ s.now ∧ accepts m.name then State.expired m.name { s with marks := rest } else s

/-- So many heads expire, one after another, as long as the head is due (R39). -/
def State.expireHeads : Nat → State → State
  | 0, s => s
  | n + 1, s => if s.noneDue then s else State.expireHeads n (s.expireHead fun _ => true)

/-- Every due mark expires, one after another in list order, those that a handling inserts among them
(R33, R39). Each mark's handling inserts one further mark at most, and a hold is extended once, so
twice the length of the list, and one, bounds the expiries. -/
def State.expireDue (s : State) : State :=
  s.whenPowered fun s => s.expireHeads (2 * s.marks.length + 1)

/-! ## The nine commands -/

/-- STALENESS_EXPIRY (R79). -/
def execStalenessExpiry (panel : Nat) (s : State) : Host.Outcome State Fault Refusal :=
  .next <| s.whenPowered fun s => s.expireHead fun n => n == .staleness panel

/-- BATCH_EXPIRY (R110). -/
def execBatchExpiry (id : Nat) (s : State) : Host.Outcome State Fault Refusal :=
  .next <| s.whenPowered fun s => s.expireHead fun n => n == .expiry id

/-- JAM_EXPIRY (R100). -/
def execJamExpiry (s : State) : Host.Outcome State Fault Refusal :=
  .next <| s.whenPowered fun s => s.expireHead fun n => n == .jam

/-- COLD_JOINT_EXPIRY (R115). -/
def execColdJointExpiry (s : State) : Host.Outcome State Fault Refusal :=
  .next <| s.whenPowered fun s => s.expireHead fun n => n == .coldJoint

/-- REFUSAL_EXPIRY (R124). -/
def execRefusalExpiry (s : State) : Host.Outcome State Fault Refusal :=
  .next <| s.whenPowered fun s => s.expireHead fun n => n == .refusal

/-- Whether a mark is a CREEP mark. -/
def MarkName.isCreep : MarkName → Bool
  | .creep _ _ => true
  | _ => false

/-- CREEP_EXPIRY (R141). -/
def execCreepExpiry (s : State) : Host.Outcome State Fault Refusal :=
  .next <| s.whenPowered fun s => s.expireHead MarkName.isCreep

/-- Whether a mark is a HOLD_END mark. -/
def MarkName.isHoldEnd : MarkName → Bool
  | .holdEnd _ => true
  | _ => false

/-- HOLD_END_EXPIRY (R142, R143). -/
def execHoldEndExpiry (s : State) : Host.Outcome State Fault Refusal :=
  .next <| s.whenPowered fun s => s.expireHead MarkName.isHoldEnd

/-- Whether a mark is a SEAT mark. -/
def MarkName.isSeat : MarkName → Bool
  | .seat _ => true
  | _ => false

/-- SEAT_EXPIRY (R160). -/
def execSeatExpiry (s : State) : Host.Outcome State Fault Refusal :=
  .next <| s.whenPowered fun s => s.expireHead MarkName.isSeat

/-- Whether a mark is a SUSPENSION mark. -/
def MarkName.isSuspension : MarkName → Bool
  | .suspension _ => true
  | _ => false

/-- SUSPENSION_EXPIRY (R147). -/
def execSuspensionExpiry (s : State) : Host.Outcome State Fault Refusal :=
  .next <| s.whenPowered fun s => s.expireHead MarkName.isSuspension

end Sys2Proof.Machine
end

