-- ==== Sys2Proof/Machine/Clock.lean ====
section
/-! DEFINITION. The site clock's commands: SITE_CLOCK_TICK, SET_TIME, SHIFT_TIME,
CLOCK_DOMAIN_SUPPLY_LOSS (R27, R28, R31, R32). -/

namespace Sys2Proof.Machine

/-- The clock counts or is shifted to a time: at the last value it stops advancing, until a SET_TIME
(R27; log entry 41). -/
def Clock.moveTo (t : SiteTime) (c : Clock) : Clock :=
  { c with time := t, stopped := c.stopped || Config.maxTime ≤ t }

/-- One 1/1024 s of a RUNNING clock that has not stopped (R27). A domain without supply does not count
(R28). -/
def Clock.tick (c : Clock) : Clock :=
  if c.running && c.supplied && !c.stopped then c.moveTo (clampTime (c.time + 1)) else c

/-- SITE_CLOCK_TICK (R27). The clock counts through power loss (R28), so the tick needs no main
supply. -/
def onSiteClockTick (s : State) : Host.Outcome State Fault Refusal :=
  .next { s with clock := s.clock.tick }

/-- The clock at a taken SET_TIME (R31): it advances again (R27). -/
def Clock.set (secs : Nat) (c : Clock) : Clock :=
  { c with running := true, time := secs * 1024, marker := true, stopped := false }

/-- SET_TIME as the clock decides it (R31). -/
def decideSetTime (ps : List Byte) (s : State) : Decision :=
  if ps.length ≠ 4 then refuse .badForm s
  else if s.clock.running && (!s.enginesIdle || s.journal.state == .appending) then
    refuse .notIdle s
  else
    .reply .ok (encTime s.now ++ encTime (u32At ps 0 * 1024))
      { s with clock := s.clock.set (u32At ps 0) }

/-- SET_TIME (R31). Marks that it makes due expire before anything else is handled (R33, R39). -/
def onSetTime (p : PortNo) (form : List Byte) (s : State) : Host.Outcome State Fault Refusal :=
  submit p 0x39 form .survey false decideSetTime s

/-- The shift in fractions of an amount of milliseconds (R32). -/
def shiftFractions (ms : Int) : Int := roundDiv (ms * 1024) 1000

/-- Site time moved by some fractions, limited at both ends (R32). -/
def shiftedTime (t : SiteTime) (fr : Int) : SiteTime := clampTime ((t : Int) + fr).toNat

/-- SHIFT_TIME as the clock decides it (R32); a clock that has stopped is moved and stays stopped
(R27; log entry 41). -/
def decideShiftTime (ps : List Byte) (s : State) : Decision :=
  if ps.length ≠ 2 then refuse .badForm s
  else if 999 < (s16At ps 0).natAbs then refuse .badForm s
  else if !s.clock.running then refuse .noTime s
  else
    .reply
      (if (shiftedTime s.now (shiftFractions (s16At ps 0)) : Int) - s.now =
          shiftFractions (s16At ps 0) then .ok else .okClamped)
      (encTime (shiftedTime s.now (shiftFractions (s16At ps 0))) ++
        encS16 ((shiftedTime s.now (shiftFractions (s16At ps 0)) : Int) - s.now))
      { s with
        clock := s.clock.moveTo (shiftedTime s.now (shiftFractions (s16At ps 0))) }

/-- SHIFT_TIME (R32). Marks that it makes due expire before anything else is handled (R33, R39). -/
def onShiftTime (p : PortNo) (form : List Byte) (s : State) : Host.Outcome State Fault Refusal :=
  submit p 0x3A form .survey false decideShiftTime s

/-- CLOCK_DOMAIN_SUPPLY_LOSS: the clock stops and the validity marker is lost; the state becomes
UNSET at the next start-up (R27, R28; log entry 12). -/
def onClockDomainSupplyLoss (s : State) : Host.Outcome State Fault Refusal :=
  .next { s with clock := { s.clock with marker := false, supplied := false } }

end Sys2Proof.Machine
end

