-- ==== Sys2Proof/Machine/Register.lean ====
section
/-! DEFINITION. The anchor register's requests (R19..R24) and the anchor record's layout (R193). -/

namespace Sys2Proof.Machine

/-! ## DECLARE (R19) -/

/-- The design part a DECLARE carries (R3, R187). -/
def designOf (ps : List Byte) : Design where
  workLoad := u16At ps 3
  tendonArea := u16At ps 5
  modulus := u16At ps 7
  freeLength := u16At ps 9
  bondLength := u16At ps 11
  tendonLength := u16At ps 13
  groutVolume := u16At ps 15
  profile := byteAt ps 17
  lockRatio := u16At ps 18

/-- A value lies within a range, both ends included. -/
def within (lo hi n : Nat) : Bool := lo ≤ n && n ≤ hi

/-- The design values' checks in the order of R3, numbered 1..9. -/
def Design.checks (d : Design) : List Bool :=
  [within 100 30000 d.workLoad, within 100 6000 d.tendonArea, within 1500 2200 d.modulus,
    within 3000 40000 d.freeLength, within 2000 15000 d.bondLength,
    within (d.freeLength + d.bondLength) 60000 d.tendonLength, within 100 20000 d.groutVolume,
    within 1 4 d.profile, within 500 1100 d.lockRatio]

/-- The number of the first field of a DECLARE out of range: 0 the position, 1..9 the design values
(R19). -/
def declareOutOfRange (count : Nat) (pos : Position) (d : Design) : Option Nat :=
  ((pos.valid && pos.panel ≤ count) :: d.checks).findIdx? fun ok => !ok

/-- A newly declared record (R19). -/
def Anchor.declared (pos : Position) (d : Design) : Anchor where
  pos := pos
  state := .declared
  design := d
  interrupted := false
  work := none
  placement := none
  grout := none
  test := none

/-- DECLARE as the register decides it, its checks in order (R19). -/
def decideDeclare (ps : List Byte) (s : State) : Decision :=
  if ps.length ≠ 20 then refuse .badForm s
  else
    match declareOutOfRange s.settings.panelCount (positionAt ps 0) (designOf ps) with
    | some k => refuseWith .outOfRange (enc8 k) s
    | none =>
      if (s.register.find (positionAt ps 0)).isSome then refuse .duplicate s
      else if Config.maxRecords ≤ s.register.records.length then refuse .registerFull s
      else
        .reply .ok []
          { s with register := { s.register with
            records := insertRecord (.declared (positionAt ps 0) (designOf ps))
              s.register.records } }

/-- DECLARE (R19). -/
def onDeclare (p : PortNo) (form : List Byte) (s : State) : Host.Outcome State Fault Refusal :=
  submit p 0x01 form .console true decideDeclare s

/-! ## WITHDRAW and ABANDON (R20, R21) -/

/-- WITHDRAW as the register decides it (R20). DESIGN CHOICE: a wrong parameter length is BAD_FORM (log
entry 36). -/
def decideWithdraw (ps : List Byte) (s : State) : Decision :=
  if ps.length ≠ 3 then refuse .badForm s
  else if !(positionAt ps 0).valid then refuse .outOfRange s
  else
    match s.register.find (positionAt ps 0) with
    | none => refuse .noAnchor s
    | some a =>
      if a.state ≠ .declared then refuse .wrongState s
      else .reply .ok [] { s with register := s.register.remove (positionAt ps 0) }

/-- WITHDRAW (R20). -/
def onWithdraw (p : PortNo) (form : List Byte) (s : State) : Host.Outcome State Fault Refusal :=
  submit p 0x02 form .console false decideWithdraw s

/-- The post count of an anchor (R6). -/
def Anchor.postCount (a : Anchor) : Nat := (a.grout.map GroutPart.postCount).getD 0

/-- The test count of an anchor (R7). -/
def Anchor.tests (a : Anchor) : Nat := (a.test.map TestPart.count).getD 0

/-- Whether an anchor may be abandoned (R21). -/
def Anchor.abandonable (a : Anchor) : Bool :=
  ((a.state == .short || a.state == .failed) && a.postCount == 2) ||
    ((a.state == .grouted || a.state == .failed) && a.tests == 4)

/-- ABANDON as the register decides it (R21). DESIGN CHOICE: a wrong parameter length is BAD_FORM (log
entry 36). -/
def decideAbandon (ps : List Byte) (s : State) : Decision :=
  if ps.length ≠ 3 then refuse .badForm s
  else if !(positionAt ps 0).valid then refuse .outOfRange s
  else
    match s.register.find (positionAt ps 0) with
    | none => refuse .noAnchor s
    | some a =>
      if a.abandonable then
        .reply .ok [] (s.modifyAnchor (positionAt ps 0) fun x => { x with state := .abandoned })
      else refuse .wrongState s

/-- ABANDON (R21). -/
def onAbandon (p : PortNo) (form : List Byte) (s : State) : Host.Outcome State Fault Refusal :=
  submit p 0x03 form .console false decideAbandon s

/-! ## The anchor record in a reply (R193) -/

/-- The six bytes of a work part (R193). -/
def encWork (w : Option Work) : List Byte :=
  match w with
  | some w => enc8 w.op.code ++ enc8 ((w.ret.map AnchorState.code).getD 0) ++ enc32 w.start
  | none => List.replicate 6 0

/-- The nine bytes of a placement part (R193). -/
def encPlacement (x : Option Placement) : List Byte :=
  match x with
  | some x =>
    enc8 (bitIf x.placed.isSome 0) ++ enc16u ((x.placed.map Prod.fst).getD 0) ++
      enc32 ((x.placed.map Prod.snd).getD 0) ++ enc8 x.jams ++ enc8 x.aborts
  | none => List.replicate 9 0

/-- The 27 bytes of a grout part (R193). -/
def encGrout (g : Option GroutPart) : List Byte :=
  match g with
  | some g =>
    enc8 (bitIf g.endTime.isSome 0 + bitIf g.primary.isSome 1 + bitIf g.post.isSome 2) ++
      enc32 (g.endTime.getD 0) ++ enc16 (g.primary.getD 0) ++ enc16 (g.post.getD 0) ++
      enc8 g.outcome.code ++ enc8 g.postCount ++ enc8 g.batchIds.length ++ encIds g.batchIds ++
      enc8 g.extra ++ enc16 g.unattributed
  | none => List.replicate 27 0

/-- The 13 bytes of a test part (R193). -/
def encTest (t : Option TestPart) : List Byte :=
  match t with
  | some t =>
    enc8 (bitIf t.creep.isSome 0 + bitIf t.lApp.isSome 1 + bitIf t.residual.isSome 2 +
        bitIf t.index.isSome 3) ++
      enc8 t.count ++ enc8 t.last.code ++ encS32 (t.creep.getD 0) ++ enc16 (t.lApp.getD 0) ++
      enc16 (t.residual.getD 0) ++ enc16 (t.index.getD 0)
  | none => List.replicate 13 0

/-- The seventeen bytes of a design part (R193). -/
def encDesign (d : Design) : List Byte :=
  enc16 d.workLoad ++ enc16 d.tendonArea ++ enc16 d.modulus ++ enc16 d.freeLength ++
    enc16 d.bondLength ++ enc16 d.tendonLength ++ enc16 d.groutVolume ++ enc8 d.profile ++
    enc16 d.lockRatio

/-- An anchor record in a NEXT or INSPECT reply: 78 bytes (R24, R193). -/
def encAnchor (a : Anchor) : List Byte :=
  encPos (some a.pos) ++ enc8 a.state.code ++ encFlag a.interrupted ++
    enc8 (bitIf a.work.isSome 0 + bitIf a.placement.isSome 1 + bitIf a.grout.isSome 2 +
      bitIf a.test.isSome 3) ++
    encDesign a.design ++ encWork a.work ++ encPlacement a.placement ++ encGrout a.grout ++
    encTest a.test

/-! ## SEEK, NEXT, INSPECT (R22, R23, R24) -/

/-- A port's cursor replaced (R22). -/
def State.setCursor (p : PortNo) (c : Option Position) (s : State) : State :=
  s.modifyPort p fun q => { q with cursor := c }

/-- SEEK as decided for a port (R22). -/
def decideSeek (p : PortNo) (ps : List Byte) (s : State) : Decision :=
  if ps.length = 0 then .reply .ok [] (s.setCursor p none)
  else if ps.length ≠ 3 then refuse .badForm s
  else if !(positionAt ps 0).valid then refuse .outOfRange s
  else .reply .ok [] (s.setCursor p (some (positionAt ps 0)))

/-- SEEK (R22). -/
def onSeek (p : PortNo) (form : List Byte) (s : State) : Host.Outcome State Fault Refusal :=
  submit p 0x04 form .every false (decideSeek p) s

/-- Whether a position is greater than a cursor (R23). -/
def beyond (c : Option Position) (q : Position) : Bool :=
  match c with
  | none => true
  | some x => x.lt q

/-- The first record past a cursor (R23). -/
def Register.next (r : Register) (c : Option Position) : Option Anchor :=
  r.records.find? fun a => beyond c a.pos

/-- NEXT as decided for a port (R23). DESIGN CHOICE: a wrong parameter length is BAD_FORM (log entry
36). -/
def decideNext (p : PortNo) (ps : List Byte) (s : State) : Decision :=
  if ps.length ≠ 0 then refuse .badForm s
  else
    match s.register.next (s.ports.get p).cursor with
    | some a => .reply .ok (encAnchor a) (s.setCursor p (some a.pos))
    | none => refuse .noRecord s

/-- NEXT (R23). -/
def onNext (p : PortNo) (form : List Byte) (s : State) : Host.Outcome State Fault Refusal :=
  submit p 0x05 form .every false (decideNext p) s

/-- INSPECT as the register decides it (R24). DESIGN CHOICE: a wrong parameter length is BAD_FORM (log
entry 36). -/
def decideInspect (ps : List Byte) (s : State) : Decision :=
  if ps.length ≠ 3 then refuse .badForm s
  else if !(positionAt ps 0).valid then refuse .outOfRange s
  else
    match s.register.find (positionAt ps 0) with
    | some a => .reply .ok (encAnchor a) s
    | none => refuse .noAnchor s

/-- INSPECT (R24). -/
def onInspect (p : PortNo) (form : List Byte) (s : State) : Host.Outcome State Fault Refusal :=
  submit p 0x06 form .every false decideInspect s

end Sys2Proof.Machine
end

