-- ==== Sys2Proof/Machine/Settings.lean ====
section
/-! DEFINITION. The stored settings: ids, ranges and clamping relations (R42, R58, R69, R73, R91, R112,
R131, R178), the settings record (R195), the check of a staged profile (R130). -/

namespace Sys2Proof.Machine

/-! ## Ids (R195) -/

/-- The 43 setting values in id order (R195). -/
def Settings.values (c : Settings) : List Nat :=
  [c.jackFs, c.groutFs, c.ramArea, c.efficiency, c.tensionFs, c.drumScale, c.ramScale, c.minStroke,
    c.capacity, c.winchDemand, c.groutDemand, c.stressDemand,
    c.ditherHz,
    c.panelCount, c.alertLevel, c.actionLevel, c.stalePeriod, c.imbalanceLimit, c.suspensionLimit,
    c.runDuty, c.slowDuty, c.slowZone, c.jamTension, c.jamTime,
    c.curePeriod, c.coldJointLimit, c.refusalPressure, c.refusalPeriod, c.groutMax, c.overfill,
    c.postCap, c.strokeVolume, c.pumpDuty,
    c.jackMax, c.ramStroke, c.approachBand, c.makeUpBand, c.rampDuty, c.approachDuty, c.seatTime,
    c.liftTravel, c.lockTolerance, c.creepLimit]

/-- The four profiles, in number order. -/
def Settings.profiles (c : Settings) : List (Option (List Step)) :=
  [c.profile1, c.profile2, c.profile3, c.profile4]

/-- The settings with given values in id order and given profiles. -/
def Settings.ofValues (v : List Nat) (ps : List (Option (List Step))) : Settings where
  jackFs := v.getD 0 0
  groutFs := v.getD 1 0
  ramArea := v.getD 2 0
  efficiency := v.getD 3 0
  tensionFs := v.getD 4 0
  drumScale := v.getD 5 0
  ramScale := v.getD 6 0
  minStroke := v.getD 7 0
  capacity := v.getD 8 0
  winchDemand := v.getD 9 0
  groutDemand := v.getD 10 0
  stressDemand := v.getD 11 0
  ditherHz := v.getD 12 0
  panelCount := v.getD 13 0
  alertLevel := v.getD 14 0
  actionLevel := v.getD 15 0
  stalePeriod := v.getD 16 0
  imbalanceLimit := v.getD 17 0
  suspensionLimit := v.getD 18 0
  runDuty := v.getD 19 0
  slowDuty := v.getD 20 0
  slowZone := v.getD 21 0
  jamTension := v.getD 22 0
  jamTime := v.getD 23 0
  curePeriod := v.getD 24 0
  coldJointLimit := v.getD 25 0
  refusalPressure := v.getD 26 0
  refusalPeriod := v.getD 27 0
  groutMax := v.getD 28 0
  overfill := v.getD 29 0
  postCap := v.getD 30 0
  strokeVolume := v.getD 31 0
  pumpDuty := v.getD 32 0
  jackMax := v.getD 33 0
  ramStroke := v.getD 34 0
  approachBand := v.getD 35 0
  makeUpBand := v.getD 36 0
  rampDuty := v.getD 37 0
  approachDuty := v.getD 38 0
  seatTime := v.getD 39 0
  liftTravel := v.getD 40 0
  lockTolerance := v.getD 41 0
  creepLimit := v.getD 42 0
  profile1 := ps.getD 0 none
  profile2 := ps.getD 1 none
  profile3 := ps.getD 2 none
  profile4 := ps.getD 3 none

/-- The setting with an id, 1..43 (R195). -/
def Settings.get (c : Settings) (id : Nat) : Nat := c.values.getD (id - 1) 0

/-- The setting with an id replaced. -/
def Settings.put (id v : Nat) (c : Settings) : Settings :=
  Settings.ofValues (c.values.set (id - 1) v) c.profiles

/-- A profile replaced (R179). -/
def Settings.putProfile (k : Nat) (steps : List Step) (c : Settings) : Settings :=
  Settings.ofValues c.values (c.profiles.set (k - 1) (some steps))

/-! ## Ranges and clamping (R178) -/

/-- The ranges in id order, but for the upper end of the jack max pressure (R42, R58, R69, R73, R91,
R112, R131). -/
def settingRanges : List (Nat × Nat) :=
  [(4000, 10000), (1000, 6000), (2000, 60000), (900, 1000), (1000, 10000), (100, 20000), (50, 1000),
    (100, 2000)] ++
  [(10, 200), (5, 100), (5, 100), (5, 100)] ++
  [(100, 400)] ++
  [(1, 32), (50, 2000), (51, 3000), (60, 3600), (0, 65535), (300, 7200)] ++
  [(200, 1000), (100, 600), (500, 5000), (100, 5000), (200, 5000)] ++
  [(24, 720), (300, 3600), (500, 4000), (60, 900), (600, 5000), (1000, 1500), (100, 1000), (5, 100),
    (200, 1000)] ++
  [(1000, 10000), (50, 400), (10, 500), (5, 200), (200, 1000), (50, 500), (2, 30), (10, 200),
    (10, 100), (50, 500)]

/-- A value clamped to the range of its setting (R42). -/
def clampRange (id v : Nat) : Nat :=
  max (settingRanges.getD (id - 1) (0, 0)).1 (min v (settingRanges.getD (id - 1) (0, 0)).2)

/-- A clamped value kept within its relation to another setting of the image: a demand at most C
(R58), the action level above the alert level (R73), the grout max pressure at least the refusal
pressure plus 100 (R112), the jack max pressure at most jack FS (R131). -/
def relate (image : Settings) (id v : Nat) : Nat :=
  if id = 10 ∨ id = 11 ∨ id = 12 then min v image.capacity
  else if id = 16 then max v (image.alertLevel + 1)
  else if id = 29 then max v (image.refusalPressure + 100)
  else if id = 34 then min v image.jackFs
  else v

/-- The value of a pair as staged into an image (R178; log entry 35). -/
def stagedValue (image : Settings) (id v : Nat) : Nat := relate image id (clampRange id v)

/-- The settings that a newly staged one moves with it (R58, R73, R112, R131). -/
def Settings.follow (id : Nat) (c : Settings) : Settings :=
  if id = 1 then { c with jackMax := min c.jackMax c.jackFs }
  else if id = 9 then
    { c with
      winchDemand := min c.winchDemand c.capacity
      groutDemand := min c.groutDemand c.capacity
      stressDemand := min c.stressDemand c.capacity }
  else if id = 15 then { c with actionLevel := max c.actionLevel (c.alertLevel + 1) }
  else if id = 27 then { c with groutMax := max c.groutMax (c.refusalPressure + 100) }
  else c

/-- An image with one pair applied (R178). -/
def Settings.stage (id v : Nat) (image : Settings) : Settings :=
  (image.put id (stagedValue image id v)).follow id

/-- Whether applying one pair changed a value by clamping: its own, or that of a related setting
(R178). -/
def stageClamped (image : Settings) (id v : Nat) : Bool :=
  stagedValue image id v != v ||
    image.stage id v != image.put id (stagedValue image id v)

/-- What applying pairs comes to: the image, the pairs as staged, and whether any value was clamped
(R178). -/
structure Staged where
  image : Settings
  pairs : List (Nat × Nat)
  clamped : Bool
  deriving DecidableEq, Repr

/-- Pairs applied to an image in order (R178). -/
def stagePairs (image : Settings) : List (Nat × Nat) → Staged
  | [] => ⟨image, [], false⟩
  | (id, v) :: rest =>
    let more := stagePairs (image.stage id v) rest
    ⟨more.image, (id, stagedValue image id v) :: more.pairs, stageClamped image id v || more.clamped⟩

/-! ## The settings record (R195) -/

/-- A defined profile's bytes: its number, its step count and its steps (R195). -/
def encProfile (k : Nat) (x : Option (List Step)) : List Byte :=
  match x with
  | some steps => enc8 k ++ enc8 steps.length ++ steps.flatMap encStep
  | none => []

/-- The profile mask (R195). -/
def profileMask (c : Settings) : Nat :=
  bitIf c.profile1.isSome 0 + bitIf c.profile2.isSome 1 + bitIf c.profile3.isSome 2 +
    bitIf c.profile4.isSome 3

/-- The bytes a profile takes in a settings record (R195). -/
def profileLength (x : Option (List Step)) : Nat :=
  match x with
  | some steps => 2 + 7 * steps.length
  | none => 0

/-- The length of a settings record (R195). -/
def settingsLength (c : Settings) : Nat :=
  91 + profileLength c.profile1 + profileLength c.profile2 + profileLength c.profile3 +
    profileLength c.profile4

/-- A settings record (R195). -/
def encSettings (c : Settings) : List Byte :=
  enc8 2 ++ enc8 1 ++ enc16 (settingsLength c) ++ c.values.flatMap enc16 ++ enc8 (profileMask c) ++
    encProfile 1 c.profile1 ++ encProfile 2 c.profile2 ++ encProfile 3 c.profile3 ++
    encProfile 4 c.profile4

/-- The steps of a list in which each must have been read. -/
def allSteps : List (Option Step) → Option (List Step)
  | [] => some []
  | none :: _ => none
  | some st :: rest => (allSteps rest).map fun more => st :: more

/-- Profile k read from the front of bytes, when the mask defines it, with the bytes behind it; the
outer `none`: not a profile (R195; log entry 25). -/
def readProfile (mask k : Nat) (bs : List Byte) : Option (Option (List Step) × List Byte) :=
  if mask.testBit (k - 1) then
    if bs.length < 2 + 7 * byteAt bs 1 ∨ byteAt bs 0 ≠ k then none
    else
      (allSteps (stepsAt bs 2 (byteAt bs 1))).map fun steps =>
        (some steps, bs.drop (2 + 7 * byteAt bs 1))
  else some (none, bs)

/-- So many two-byte values from an index on. -/
def valuesAt (bs : List Byte) : Nat → Nat → List Nat
  | _, 0 => []
  | i, n + 1 => u16At bs i :: valuesAt bs (i + 2) n

/-- The settings of a settings record; `none`: it does not have the layout of R195. DESIGN CHOICE: bytes
past the last profile and bits 4..7 of the profile mask are not looked at (log entry 25). -/
def decSettings (bs : List Byte) : Option Settings :=
  if byteAt bs 0 ≠ 2 ∨ byteAt bs 1 ≠ 1 ∨ u16At bs 2 ≠ bs.length ∨ bs.length < 91 then none
  else
    match readProfile (byteAt bs 90) 1 (bs.drop 91) with
    | none => none
    | some (p1, r1) =>
      match readProfile (byteAt bs 90) 2 r1 with
      | none => none
      | some (p2, r2) =>
        match readProfile (byteAt bs 90) 3 r2 with
        | none => none
        | some (p3, r3) =>
          (readProfile (byteAt bs 90) 4 r3).map fun x =>
            Settings.ofValues (valuesAt bs 4 43) [p1, p2, p3, x.1]

/-! ## The check of a staged profile (R130; log entry 17) -/

/-- Condition 1: each field of a step lies within its range (R129, R130). -/
def Step.inRange (st : Step) : Bool :=
  st.target ≤ 1600 && st.hold ≤ 7200 && (st.ext == 0 || (20 ≤ st.ext && st.ext ≤ 72000))

/-- Condition 2: the DATUM step is step 1, with H at least 60. -/
def Step.datumOk (i : Nat) (st : Step) : Bool :=
  if i = 1 then st.role == .datum && 60 ≤ st.hold else st.role != .datum

/-- Condition 3: no second PEAK step. -/
def Step.peakOk (before : List Step) (st : Step) : Bool :=
  st.role != .peak || !(before.any fun x => x.role == .peak)

/-- Condition 4: a RETURN step is the only one, stands after the PEAK, is last, and has the target
of step 1. -/
def Step.returnOk (n i : Nat) (before : List Step) (st : Step) : Bool :=
  st.role != .ret ||
    ((before.any fun x => x.role == .peak) && !(before.any fun x => x.role == .ret) && i == n &&
      (before.head?.map Step.target) == some st.target)

/-- Condition 5: at most four creep steps, none of them the DATUM step. -/
def Step.creepCountOk (before : List Step) (st : Step) : Bool :=
  !st.creep || (st.role != .datum && (before.filter Step.creep).length < 4)

/-- Condition 6: a creep step has H a multiple of 10 and at least 60. -/
def Step.creepHoldOk (st : Step) : Bool := !st.creep || (st.hold % 10 == 0 && 60 ≤ st.hold)

/-- Condition 7: an extendable step is a creep step with H_ext a multiple of 10, above H, and
H_ext / 10 at most H. -/
def Step.extendOk (st : Step) : Bool :=
  st.ext == 0 || (st.creep && st.ext % 10 == 0 && st.hold < st.ext && st.ext / 10 ≤ st.hold)

/-- The first condition that step i of n breaks, given the steps before it. -/
def stepFault (n i : Nat) (before : List Step) (st : Step) : Option Nat :=
  if !st.inRange then some 1
  else if !st.datumOk i then some 2
  else if !st.peakOk before then some 3
  else if !st.returnOk n i before then some 4
  else if !st.creepCountOk before then some 5
  else if !st.creepHoldOk then some 6
  else if !st.extendOk then some 7
  else none

/-- The first step at fault from step i on, with the condition it breaks; a step whose role byte
names no role breaks condition 1. -/
def stepsFault (n : Nat) : Nat → List Step → List (Option Step) → Option (Nat × Nat)
  | _, _, [] => none
  | i, _, none :: _ => some (i, 1)
  | i, before, some st :: rest =>
    match stepFault n i before st with
    | some c => some (i, c)
    | none => stepsFault n (i + 1) (before ++ [st]) rest

/-- The fault of a whole profile, none of its steps being at fault alone: step 0 (R130). -/
def wholeFault (steps : List (Option Step)) : Option (Nat × Nat) :=
  if steps.length < 3 ∨ 16 < steps.length then some (0, 1)
  else if !(steps.any fun st => st.map Step.role == some .peak) then some (0, 3)
  else if !(steps.any fun st => st.map Step.role == some .ret) then some (0, 4)
  else none

/-- The step and condition at fault in a staged profile; `none`: it passes (R130). -/
def profileFault (steps : List (Option Step)) : Option (Nat × Nat) :=
  match stepsFault steps.length 1 [] steps with
  | some r => some r
  | none => wholeFault steps

end Sys2Proof.Machine
end

