-- ==== Sys2Proof/Machine/SupplyCommands.lean ====
section
/-! DEFINITION. The supply's commands that reach the engines: CLAIM, GRANT, TRIP_NOTICE, CLEAR_NOTICE
(R60, R62, R65, R66). -/

namespace Sys2Proof.Machine

/-- An engine handles a trip (R101, R125, R151). -/
def State.engineTrip (e : Engine) (s : State) : State :=
  match e with
  | .winch => s.winchTrip | .grout => s.groutTrip | .stress => s.stressTrip

/-- A grant reaches an engine (R95, R119, R136). -/
def State.engineGrant (e : Engine) (s : State) : State :=
  match e with
  | .winch => s.winchGrant | .grout => s.groutGrant | .stress => s.stressGrant

/-- An engine handles the clear: only the stress engine acts (R66, R101, R125, R151). -/
def State.engineClear (e : Engine) (s : State) : State :=
  match e with
  | .winch => s | .grout => s | .stress => s.stressClear

/-- The arbiter decides a claim: refused as TRIPPED, refused as DUPLICATE, or queued (R60). -/
def State.decideClaim (e : Engine) (demand : Nat) (s : State) : State :=
  if s.supply.latched then s.engineTrip e
  else if (s.supply.flowOf e).status ≠ .none then s
  else s.acceptClaim e demand

/-- The demand of a claim of an engine. -/
def Delivery.claimOf (e : Engine) : Delivery → Option Nat
  | .claim f d => if f = e then some d else none
  | _ => none

/-- CLAIM (R60, R61, R62). -/
def onClaim (e : Engine) (s : State) : Host.Outcome State Fault Refusal :=
  .next <| s.whenPowered fun s =>
    s.deliver (Delivery.fromEngine e) (Delivery.claimOf e) fun d t => t.decideClaim e d

/-- GRANT: grants are delivered in the order in which they were made (R62, R95, R119, R136, R167). -/
def onGrant (e : Engine) (s : State) : Host.Outcome State Fault Refusal :=
  .next <| s.whenPowered fun s =>
    s.deliver (fun d => d.isGrant || d.toEngine e)
      (fun d => if d = .grant e then some () else none) fun _ t => t.engineGrant e

/-- TRIP_NOTICE (R65, R101, R125, R151, R166). -/
def onTripNotice (e : Engine) (s : State) : Host.Outcome State Fault Refusal :=
  .next <| s.whenPowered fun s =>
    s.deliver (Delivery.toEngine e) (fun d => if d = .tripNotice e then some () else none)
      fun _ t => t.engineTrip e

/-- CLEAR_NOTICE (R66, R151, R167). -/
def onClearNotice (e : Engine) (s : State) : Host.Outcome State Fault Refusal :=
  .next <| s.whenPowered fun s =>
    s.deliver (Delivery.toEngine e) (fun d => if d = .clearNotice e then some () else none)
      fun _ t => t.engineClear e

/-! ## Before settings come into force (R58) -/

/-- A claim or a release, to the arbiter. -/
def Delivery.toArbiter : Delivery → Bool
  | .claim _ _ => true
  | .release _ => true
  | _ => false

/-- A claim or a release arrives at the arbiter (R60, R63). -/
def State.arrive (s : State) (d : Delivery) : State :=
  match d with
  | .claim e demand => s.decideClaim e demand
  | .release e => s.acceptRelease e
  | _ => s

/-- Every claim and release in flight arrives at the arbiter, in the order sent: an engine's last
release has then arrived before the capacity changes (R58; log entry 5). -/
def State.arrivals (s : State) : State :=
  (s.deliveries.filter Delivery.toArbiter).foldl State.arrive
    { s with deliveries := s.deliveries.filter fun d => !d.toArbiter }

end Sys2Proof.Machine
end

