-- ==== Sys2Proof/Machine/Journal.lean ====
section
/-! DEFINITION. The journal (chapter 10): index entries, appends and their completion, the completion of
a certificate in the register (R17), READ_JOURNAL, staging and committing settings. -/

namespace Sys2Proof.Machine

/-! ## Index entries (R168, R169, R194) -/

/-- The eight bytes of an index entry for a range with the given bytes (R169, R194). -/
def entryBytes (kind : EntryKind) (start : Nat) (range : List Byte) : List Byte :=
  enc8 0xA5 ++ enc8 kind.code ++ [xorBytes range] ++ enc16 (start / 16) ++ enc16 range.length ++
    enc8 1

/-- An index entry as it is read from the array (R169). -/
structure Entry where
  kind : Nat
  check : Byte
  start : Nat
  length : Nat
  deriving DecidableEq, Repr

/-- The bytes of the slot of entry k. -/
def Memory.slot (m : Memory) (k : Nat) : List Byte := m.readBytes (entryOffset k) 8

/-- Entry k as it stands in the array (R169, R194). -/
def Memory.entry (m : Memory) (k : Nat) : Entry where
  kind := byteAt (m.slot k) 1
  check := (m.slot k).getD 2 0
  start := 16 * u16At (m.slot k) 3
  length := u16At (m.slot k) 5

/-- The bytes of the header that the journal writes, with the format marker and the capacity (R168; log
entry 8). -/
def headerBytes : List Byte := (List.range 32).map Config.headerByte

/-- The header's byte at an offset 0..31 (R168; log entry 8). -/
def Header.byte (h : Header) (a : Nat) : Byte :=
  match h with
  | .absent => 0
  | .right => Config.headerByte a
  | .other bs => bs.getD a 0

/-- The journal's byte at an offset: the header's, the array's, or past the last offset a free value
(R168; log entries 8, 27). -/
def Journal.byte (j : Journal) (a : Nat) : Byte :=
  if a < 32 then j.header.byte a
  else if a < Config.arraySize then j.array.read a
  else Config.beyondArray a

/-- The bytes of an entry's range. -/
def Journal.range (j : Journal) (e : Entry) : List Byte := (List.range' e.start e.length).map j.byte

/-! ## Programming (R171, R172) -/

/-- What a programming of some bytes leaves in the array (log entry 9). -/
def left (bs : List Byte) (readback : Option (List Byte)) : List Byte :=
  fitBytes bs.length (readback.getD bs)

/-- A record programmed at the append point (R171). -/
def Journal.putRecord (record : List Byte) (readback : Option (List Byte)) (j : Journal) : Journal :=
  { j with array := j.array.writeBytes j.appendPoint (left record readback) }

/-- The journal with the next entry counted, for a range of some length at the append point (R171,
R172). -/
def Journal.countEntry (kind : EntryKind) (length : Nat) (j : Journal) : Journal :=
  { j with
    count := j.count + 1
    appendPoint := align16 (j.appendPoint + length)
    lastCert := if kind = .certificate then some j.count else j.lastCert }

/-- The next index entry programmed for a range at the append point, and counted when it reads back
as programmed; the flag says whether it did (R171, R172). -/
def Journal.putEntry (kind : EntryKind) (range : List Byte) (readback : Option (List Byte))
    (j : Journal) : Journal × Bool :=
  let e := entryBytes kind j.appendPoint range
  let t := { j with array := j.array.writeBytes (entryOffset j.count) (left e readback) }
  if left e readback = e then (t.countEntry kind range.length, true) else (t, false)

/-- How an append ended: the journal, and the entry number, or none after a FAULT (R171, R172). -/
structure AppendEnd where
  journal : Journal
  index : Option Nat
  deriving DecidableEq, Repr

/-- Whether there is room for a record and its entry (R172, R175). -/
def Journal.fits (record : List Byte) (j : Journal) : Bool := record.length + 8 ≤ j.room

/-- The last attempt at a record, whose failures end in FAULT (R172). -/
def Journal.retry (a : Append) (run : AppendRun) (j : Journal) : AppendEnd :=
  let t := j.putRecord a.record run.retryRecord
  if left a.record run.retryRecord ≠ a.record then ⟨t, none⟩
  else
    let r := t.putEntry a.kind a.record run.retryEntry
    ⟨r.1, if r.2 then some j.count else none⟩

/-- An append: the record, its entry, and, when the record reads back wrong, a SPOILED entry and one
retry (R171, R172); without room for the record and its entry it ends in FAULT (R175). -/
def Journal.append (a : Append) (run : AppendRun) (j : Journal) : AppendEnd :=
  if !j.fits a.record then ⟨j, none⟩
  else
    let t := j.putRecord a.record run.record
    if left a.record run.record = a.record then
      let r := t.putEntry a.kind a.record run.entry
      ⟨r.1, if r.2 then some j.count else none⟩
    else
      let r := t.putEntry .spoiled (left a.record run.record) run.entry
      if r.2 && r.1.fits a.record then r.1.retry a run else ⟨r.1, none⟩

/-- The array an append leaves when it is cut short after so many of its programmings (log
entry 9). -/
def Journal.cutAppend (phases : Nat) (a : Append) (run : AppendRun) (j : Journal) : Memory :=
  if !j.fits a.record then j.array
  else
    let t := j.putRecord a.record run.record
    let right : Bool := left a.record run.record = a.record
    let r := t.putEntry (if right then a.kind else .spoiled) (left a.record run.record) run.entry
    match phases with
    | 0 => j.array
    | 1 => t.array
    | 2 => r.1.array
    | 3 => if !right && r.2 && r.1.fits a.record then (r.1.putRecord a.record run.retryRecord).array
      else r.1.array
    | _ => (j.append a run).journal.array

/-! ## The completion of a certificate in the register (R17, R84) -/

/-- Whether a result locks the anchor (R17). -/
def TestCode.locks : TestCode → Bool
  | .accepted => true | .lockoffDeviation => true | _ => false

/-- The register's completion for the record (R17). -/
def Anchor.certified (c : PendingCertificate) (index : Option Nat) (a : Anchor) : Anchor :=
  if a.state = .recording then
    { a with
      state := if c.result.locks then .locked else .failed
      test := a.test.map fun t =>
        { t with index := index, residual := if c.result.locks then c.residual else t.residual } }
  else a

/-- The register's completion of the slot's certificate, with the panel table's sum and
RECORD_STORED (R17, R84). -/
def State.completeCertificate (index : Option Nat) (s : State) : State :=
  match s.register.slot with
  | none => s
  | some c =>
    let t := { s with register := { s.register.modify c.pos (Anchor.certified c index) with
      slot := none } }
    let u := if c.result.locks then t.addLocked c.pos.panel (c.residual.getD 0) else t
    if index.isSome then u.raise .recordStored else u

/-! ## The completion of a commit (R180, R82) -/

/-- The image comes into force and is released (R180); the panel table applies it (R82). -/
def State.bringInForce (s : State) : State :=
  match s.staging with
  | some x => State.applyPanelSettings s.settings { s with settings := x.image, staging := none }
  | none => s

/-- A settings append completes: the claims and releases sent before it arrive (R58), then the
settings come into force, and the commit is answered (R180). -/
def State.completeCommit (p : PortNo) (index : Option Nat) (s : State) : State :=
  match index with
  | some k => s.arrivals.bringInForce.answer p .ok (enc16 k)
  | none => State.answer p .journalFault [] { s with staging := none }

/-! ## APPEND_COMPLETION (R171, R172, R173) -/

/-- The asker is told of a completion (R171). -/
def State.tellAsker (asker : Asker) (index : Option Nat) (s : State) : State :=
  match asker with
  | .register => s.completeCertificate index
  | .commit p => s.completeCommit p index

/-- The journal's own events after a completion: JOURNAL_FAULT, or JOURNAL_LOW in READY with little
room (R170, R172). -/
def State.journalEvents (s : State) : State :=
  if s.journal.state = .fault then s.raise .journalFault
  else if s.journal.room < Config.lowRoom then s.raise .journalLow
  else s

/-- The journal after an append's end: READY, or FAULT (R171, R172). -/
def AppendEnd.settle (x : AppendEnd) : Journal :=
  { x.journal with state := if x.index.isSome then .ready else .fault, inFlight := none }

/-- The append in flight completes (R171, R172). -/
def State.completeAppend (run : AppendRun) (s : State) : State :=
  match s.journal.inFlight with
  | none => s
  | some a =>
    let x := s.journal.append a run
    State.tellAsker a.asker x.index (State.journalEvents { s with journal := x.settle })

/-- APPEND_COMPLETION (R171, R172); with no append in flight nothing happens (log entry 6). -/
def onAppendCompletion (run : AppendRun) (s : State) : Host.Outcome State Fault Refusal :=
  .next <| s.whenPowered fun s => s.completeAppend run

/-! ## READ_JOURNAL (R177) -/

/-- READ_JOURNAL as the journal decides it, its checks in order (R177). -/
def decideReadJournal (ps : List Byte) (s : State) : Decision :=
  if ps.length ≠ 5 ∨ byteAt ps 4 < 1 ∨ 120 < byteAt ps 4 then refuse .badForm s
  else if s.journal.count ≤ u16At ps 0 then refuse .noRecord s
  else
    let e := s.journal.array.entry (u16At ps 0)
    if e.length ≤ u16At ps 2 then refuse .outOfRange s
    else
      let range := s.journal.range e
      .reply (if xorBytes range = e.check then .ok else .corrupt)
        (enc8 e.kind ++ enc16 e.length ++ (range.drop (u16At ps 2)).take (byteAt ps 4)) s

/-- READ_JOURNAL (R177). -/
def onReadJournal (p : PortNo) (form : List Byte) (s : State) :
    Host.Outcome State Fault Refusal :=
  submit p 0x41 form .every false decideReadJournal s

/-! ## Staging (R178, R179) -/

/-- Whether an image is held by another port (R178). -/
def State.heldByOther (p : PortNo) (s : State) : Bool :=
  match s.staging with
  | some x => x.holder != p
  | none => false

/-- The image a staging request applies to: the one held, or a copy of the settings in force
(R178). -/
def State.image (s : State) : Settings :=
  match s.staging with
  | some x => x.image
  | none => s.settings

/-- The image replaced, held by a port (R178). -/
def State.holdImage (p : PortNo) (image : Settings) (s : State) : State :=
  { s with staging := some ⟨p, image⟩ }

/-- So many pairs of a STAGE_SETTING from an index on (R187). -/
def pairsAt (ps : List Byte) : Nat → Nat → List (Nat × Nat)
  | _, 0 => []
  | i, n + 1 => (byteAt ps i, u16At ps (i + 1)) :: pairsAt ps (i + 3) n

/-- The pairs of a STAGE_SETTING (R187). -/
def pairsOf (ps : List Byte) : List (Nat × Nat) := pairsAt ps 0 (ps.length / 3)

/-- The form of a STAGE_SETTING: 1..16 whole pairs, every id known (R178, R195). -/
def stageFormOk (ps : List Byte) : Bool :=
  ps.length % 3 == 0 && 1 ≤ ps.length / 3 && ps.length / 3 ≤ 16 &&
    (pairsOf ps).all fun x => 1 ≤ x.1 && x.1 ≤ 43

/-- STAGE_SETTING as the journal decides it for a port (R178). -/
def decideStageSetting (p : PortNo) (ps : List Byte) (s : State) : Decision :=
  if !stageFormOk ps then refuse .badForm s
  else if s.heldByOther p then refuse .stagingHeld s
  else
    .reply (if (stagePairs s.image (pairsOf ps)).clamped then .okClamped else .ok)
      ((stagePairs s.image (pairsOf ps)).pairs.flatMap fun x => enc8 x.1 ++ enc16 x.2)
      (s.holdImage p (stagePairs s.image (pairsOf ps)).image)

/-- STAGE_SETTING (R178). -/
def onStageSetting (p : PortNo) (form : List Byte) (s : State) :
    Host.Outcome State Fault Refusal :=
  submit p 0x48 form .console false (decideStageSetting p) s

/-- STAGE_PROFILE as the journal decides it for a port, its checks in order (R178, R179). -/
def decideStageProfile (p : PortNo) (ps : List Byte) (s : State) : Decision :=
  if ps.length ≠ 2 + 7 * byteAt ps 1 then refuse .badForm s
  else if byteAt ps 0 < 1 ∨ 4 < byteAt ps 0 then refuse .outOfRange s
  else if s.heldByOther p then refuse .stagingHeld s
  else
    match profileFault (stepsAt ps 2 (byteAt ps 1)), allSteps (stepsAt ps 2 (byteAt ps 1)) with
    | some r, _ => refuseWith .badProfile (enc8 r.1 ++ enc8 r.2) s
    | none, some steps => .reply .ok [] (s.holdImage p (s.image.putProfile (byteAt ps 0) steps))
    | none, none => refuse .badProfile s

/-- STAGE_PROFILE (R179). -/
def onStageProfile (p : PortNo) (form : List Byte) (s : State) :
    Host.Outcome State Fault Refusal :=
  submit p 0x49 form .console false (decideStageProfile p) s

/-- DROP_STAGING as the journal decides it for a port (R179). -/
def decideDropStaging (p : PortNo) (ps : List Byte) (s : State) : Decision :=
  if ps.length ≠ 0 then refuse .badForm s
  else if s.heldByOther p then refuse .stagingHeld s
  else .reply .ok [] { s with staging := none }

/-- DROP_STAGING (R179). -/
def onDropStaging (p : PortNo) (form : List Byte) (s : State) :
    Host.Outcome State Fault Refusal :=
  submit p 0x4A form .console false (decideDropStaging p) s

/-! ## COMMIT_SETTINGS (R180) -/

/-- The journal's own checks of a commit of an image, the last ones (R180; log entry 21). -/
def decideCommitImage (p : PortNo) (image : Settings) (s : State) : Decision :=
  match s.register.records.find? fun a => image.panelCount < a.pos.panel with
  | some a => refuseWith .badSetting (encPos (some a.pos)) s
  | none =>
    if s.journal.state = .fault then refuse .journalFault s
    else if s.journal.room < settingsLength image + 23 then
      refuseWith .journalFull (enc32 s.journal.room ++ enc16 (settingsLength image + 23)) s
    else .busy { s with journal := s.journal.ask .settings (encSettings image) (.commit p) }

/-- COMMIT_SETTINGS as the journal decides it for a port, its checks in order (R180). -/
def decideCommit (p : PortNo) (ps : List Byte) (s : State) : Decision :=
  if ps.length ≠ 0 then refuse .badForm s
  else
    match s.staging with
    | none => refuse .wrongState s
    | some x =>
      if x.holder ≠ p then refuse .stagingHeld s
      else if !s.enginesIdle || s.journal.state == .appending then refuse .notIdle s
      else decideCommitImage p x.image s

/-- COMMIT_SETTINGS (R180). -/
def onCommitSettings (p : PortNo) (form : List Byte) (s : State) :
    Host.Outcome State Fault Refusal :=
  submit p 0x4B form .console false (decideCommit p) s

end Sys2Proof.Machine
end

