-- ==== Sys2Proof/Machine/StartUp.lean ====
section
/-! DEFINITION. Start-up and power: START_UP, START_UP_SCAN_DONE, POWER_LOSS (R1, R25, R26, R28, R56,
R67, R85, R168, R174, R175, R181, R183, R184, R189). -/

namespace Sys2Proof.Machine

/-! ## The start-up scan (R174) -/

/-- How many slots from slot k on hold the marker A5h; the first number bounds the search (R174 step
1). -/
def Memory.countEntries (m : Memory) : Nat → Nat → Nat
  | 0, k => k
  | n + 1, k => if m.read (entryOffset k) = 0xA5 then m.countEntries n (k + 1) else k

/-- As many slots as fit above the header. -/
def slotLimit : Nat := 32764

/-- The counted entries (R174 step 1). -/
def Memory.entryCount (m : Memory) : Nat := m.countEntries slotLimit 0

/-- The append point over so many counted entries: the first multiple of 16 at or above the highest
end, or 32 (R174 step 2). DESIGN CHOICE: never below 32, where the record area begins (R168; log
entry 42). -/
def Memory.scanPoint (m : Memory) : Nat → Nat
  | 0 => 32
  | n + 1 => max (m.scanPoint n) (align16 ((m.entry n).start + (m.entry n).length))

/-- The highest-numbered entry, of so many, that a selector accepts (R174 steps 4, 5). -/
def Memory.lastEntry {α : Type} (m : Memory) (f : Entry → Option α) : Nat → Option (Nat × α)
  | 0 => none
  | n + 1 =>
    match f (m.entry n) with
    | some x => some (n, x)
    | none => m.lastEntry f n

/-- The last CERTIFICATE entry number of so many entries (R174 step 4). -/
def Memory.lastCertificate (m : Memory) (n : Nat) : Option Nat :=
  (m.lastEntry (fun e => if e.kind = EntryKind.certificate.code then some () else none) n).map
    Prod.fst

/-- The settings of an entry: kind SETTINGS, matching its check byte (R174 step 5; log
entry 25). -/
def Journal.settingsOf (j : Journal) (e : Entry) : Option Settings :=
  if e.kind = EntryKind.settings.code ∧ xorBytes (j.range e) = e.check then decSettings (j.range e)
  else none

/-- The settings the scan takes into force (R174 step 5). -/
def Journal.scanSettings (j : Journal) (n : Nat) : Settings :=
  ((j.array.lastEntry j.settingsOf n).map Prod.snd).getD .default

/-- The end of the last block of 16 bytes, between two offsets, that holds a byte not 00h; 0 when
there is none (R174 step 3). -/
def Memory.lastBlockEnd (m : Memory) (lo hi : Nat) : Nat :=
  ((m.filter fun c => lo ≤ c.1 && c.1 < hi).map fun c => (c.1 / 16 + 1) * 16).foldl max 0

/-- The journal with its counted entries, append point and last certificate (R174 steps 1, 2,
4). -/
def Journal.scanned (j : Journal) : Journal :=
  { j with
    count := j.array.entryCount
    appendPoint := j.array.scanPoint j.array.entryCount
    lastCert := j.array.lastCertificate j.array.entryCount }

/-- The journal in FAULT. -/
def Journal.faulty (j : Journal) : Journal := { j with state := .fault }

/-- The journal in READY. -/
def Journal.sound (j : Journal) : Journal := { j with state := .ready }

/-- The free area covered by a SPOILED entry when it is not blank (R174 step 3); the flag says
whether an entry was programmed and counted. -/
def Journal.spoilFree (readback : Option (List Byte)) (j : Journal) : Journal × Bool :=
  let stop := j.array.lastBlockEnd j.appendPoint (entryOffset j.count)
  if stop = 0 then (j.sound, false)
  else if entryOffset j.count < stop then (j.faulty, false)
  else
    let r := j.putEntry .spoiled (j.array.readBytes j.appendPoint (stop - j.appendPoint)) readback
    if r.2 then (r.1.sound, true) else (r.1.faulty, false)

/-- The scan past the header: the journal, and whether its own SPOILED entry was counted (R174). -/
def Journal.scan (readback : Option (List Byte)) (j : Journal) : Journal × Bool :=
  if j.scanned.array.slot j.scanned.count ≠ List.replicate 8 0 then (j.scanned.faulty, false)
  else j.scanned.spoilFree readback

/-- The header that 32 bytes are: right as the bytes that the journal writes, absent as all 00h (R168;
log entry 8). -/
def Header.ofBytes (bs : List Byte) : Header :=
  if bs = headerBytes then .right
  else if bs = List.replicate 32 0 then .absent
  else .other bs

/-- The header as a programming of it leaves it: as programmed, or what it reads back (R168; log entry
9). -/
def Header.left (readback : Option (List Byte)) : Header :=
  match readback with
  | none => .right
  | some bs => .ofBytes (fitBytes 32 bs)

/-- Whether a header is right: the bytes that the journal writes are, and whether other bytes hold the
format marker and the capacity is a free value (R168; log entry 8). -/
def Header.isRight (h : Header) : Bool :=
  match h with
  | .absent => false
  | .right => true
  | .other bs => bs = headerBytes || Config.headerHolds bs

/-- The header check: the journal, and whether the scan goes on. An absent header is written and must
read back as it was programmed; one that is present must be right (R168; log entry 8). -/
def Journal.checkHeader (readback : Option (List Byte)) (j : Journal) : Journal × Bool :=
  if j.header = .absent then
    ({ j with header := .left readback }, Header.left readback = .right)
  else (j, j.header.isRight)

/-- What the scan comes to: the journal, and whether JOURNAL_LOW is raised (R174). -/
def Journal.startScan (run : ScanRun) (j : Journal) : Journal × Bool :=
  let t := j.checkHeader run.header
  if t.2 then
    let r := t.1.scan run.spoiledEntry
    (r.1, r.2 && r.1.room < Config.lowRoom)
  else ({ t.1 with state := .fault, count := 0, appendPoint := 32, lastCert := none }, false)

/-- The settings in force after the scan: the defaults when it ends in FAULT (R174). -/
def Journal.foundSettings (j : Journal) : Settings :=
  if j.state = .ready then j.scanSettings j.count else .default

/-! ## The fix-up (R25, R26) -/

/-- Start-up time: absent when the clock is UNSET (R25). -/
def State.startUpTime (s : State) : Option Nat :=
  if s.clock.running then some s.nowSeconds else none

/-- A record found in the midst of an operation, put into a state from which the rig can go on
(R25). -/
def Anchor.fixUp (time : Option Nat) (a : Anchor) : Anchor :=
  match a.state with
  | .placing => { a with state := .declared, work := none, interrupted := true }
  | .grouting =>
    match a.work.map Work.op with
    | some .groutPrimary =>
      { a with
        state := .short, work := none, interrupted := true
        grout := some { a.groutPart with
          endTime := time, primary := none, outcome := .incomplete } }
    | _ =>
      { a with
        state := a.returnState, work := none, interrupted := true
        grout := some { a.groutPart with
          endTime := if time.isSome then time else a.groutPart.endTime
          post := none, outcome := .incomplete, postCount := a.groutPart.postCount + 1 } }
  | .testing =>
    { a with
      state := a.returnState, work := none, interrupted := true
      test := some { a.testPart with
        count := a.testPart.count + 1, last := .abortedPower, creep := none, lApp := none } }
  | _ => a

/-- Every record fixed up, in position order (R25). -/
def State.fixUpRecords (s : State) : State :=
  { s with register := { s.register with
    records := s.register.records.map (Anchor.fixUp s.startUpTime) } }

/-- Whether a RECORDING anchor is in the register (R26). -/
def Register.recording (r : Register) : Bool := r.records.any fun a => a.state == .recording

/-- Whether the record of an entry matches its check byte and names a position and test count
(R26, R175, R194). -/
def Journal.names (j : Journal) (e : Entry) (c : PendingCertificate) : Bool :=
  xorBytes (j.range e) == e.check && positionAt (j.range e) 4 == c.pos &&
    byteAt (j.range e) 7 == c.testCount

/-- The last certificate entry, when it is the slot's certificate (R26). -/
def Journal.written (j : Journal) (c : PendingCertificate) : Option Nat :=
  match j.lastCert with
  | some k => if j.names (j.array.entry k) c then some k else none
  | none => none

/-- The RECORDING anchor is settled from the slot (R26; log entry 24). -/
def State.settleSlot (c : PendingCertificate) (s : State) : State :=
  match s.journal.written c with
  | some k => s.completeCertificate (some k)
  | none =>
    if s.journal.state = .fault then s.completeCertificate none
    else { s with journal := s.journal.ask .certificate c.record .register }

/-- The slot after the fix-up: emptied unless a RECORDING anchor was found (R25, R26). -/
def State.fixUpSlot (s : State) : State :=
  if s.register.recording then
    match s.register.slot with
    | some c => s.settleSlot c
    | none => s
  else { s with register := { s.register with slot := none } }

/-! ## START_UP_SCAN_DONE (R184) -/

/-- The scan is made: journal, settings, events (R174). -/
def State.scanJournal (run : ScanRun) (s : State) : State :=
  let r := s.journal.startScan run
  let t := { s with journal := r.1, settings := r.1.foundSettings }
  let u := if r.1.state = .fault then t.raise .journalFault else t
  if r.2 then u.raise .journalLow else u

/-- The scan, the fix-up, the recomputation, and READY for requests (R25, R85, R174, R184). -/
def State.finishStartUp (run : ScanRun) (s : State) : State :=
  let t := ((s.scanJournal run).fixUpRecords.fixUpSlot).recomputeLocked
  { t with ready := true }

/-- START_UP_SCAN_DONE (R184); it comes to a start-up whose scan is under way (log entry 6). -/
def onStartUpScanDone (run : ScanRun) (s : State) : Host.Outcome State Fault Refusal :=
  if !s.powered || s.ready || s.journal.state != .scanning then .next s
  else .next (s.finishStartUp run)

/-! ## START_UP and POWER_LOSS -/

/-- The role two strap pins give (R181). -/
def roleOf (x : Straps) : Role :=
  match x.second, x.first with
  | false, false => .disabled
  | false, true => .console
  | true, false => .field
  | true, true => .survey

/-- What a start-up or a power loss that cuts the scan's own programmings short leaves: the header,
then the SPOILED entry (log entry 9). -/
def Journal.cutScan (phases : Nat) (run : AppendRun) (j : Journal) : Journal :=
  if phases = 0 then j
  else
    let t := j.checkHeader run.record
    if phases = 1 ∨ t.2 = false then t.1
    else { t.1 with array := (t.1.scan run.entry).1.array }

/-- The journal's nonvolatile contents when its work is cut short (log entry 9). -/
def Journal.cut (phases : Nat) (run : AppendRun) (j : Journal) : Journal :=
  match j.state, j.inFlight with
  | .scanning, _ => j.cutScan phases run
  | _, some a => { j with array := j.cutAppend phases a run }
  | _, none => j

/-- The clock's check of its marker (R28). -/
def Clock.check (c : Clock) : Clock :=
  if c.marker then { c with supplied := true } else ⟨false, 0, false, true, false⟩

/-- The register's check of its format marker (R1). -/
def Register.check (r : Register) : Register := if r.marker then r else ⟨true, [], none⟩

/-- Every volatile block at its start-up values, with the pins' levels, the ports in given roles, and
the journal's work cut short. -/
def State.restart (pins : StartPins) (roles : PortNo → Role) (phases : Nat) (run : AppendRun)
    (s : State) : State :=
  { s with
    ready := false
    marks := []
    meas := .atStartUp pins.drum pins.ram
    supply := .atStartUp pins.tripLow
    outputs := .atStartUp
    panels := List.replicate 32 .atStartUp
    batches := []
    winch := .atStartUp
    grout := .atStartUp
    stress := .atStartUp
    journal := .atStartUp (s.journal.cut phases run).array (s.journal.cut phases run).header
    settings := .default
    staging := none
    ports := ⟨.atStartUp (roles 0) (!s.clock.marker), .atStartUp (roles 1) (!s.clock.marker),
      .atStartUp (roles 2) (!s.clock.marker), .atStartUp (roles 3) (!s.clock.marker)⟩
    deliveries := [] }

/-- The roles the straps give the four ports (R181). -/
def pinRoles (pins : StartPins) : PortNo → Role
  | 0 => roleOf pins.lp0 | 1 => roleOf pins.lp1 | 2 => roleOf pins.lp2 | 3 => roleOf pins.lp3

/-- START_UP (R1, R25, R28, R40, R56, R59, R67, R70, R83, R107, R132, R174, R181, R183, R189; log
entries 7, 11). -/
def onStartUp (cause : StartCause) (pins : StartPins) (phases : Nat) (run : AppendRun)
    (s : State) : Host.Outcome State Fault Refusal :=
  if !s.powered ∧ cause = .line then .next s
  else
    let t := s.restart pins (pinRoles pins) (if s.powered then phases else 0) run
    .next { t with
      powered := true, startCause := cause, clock := s.clock.check, register := s.register.check }

/-- The pins of a part without supply: all low levels and no roles (log entry 11). -/
def unpoweredPins : StartPins where
  lp0 := ⟨false, false⟩
  lp1 := ⟨false, false⟩
  lp2 := ⟨false, false⟩
  lp3 := ⟨false, false⟩
  tripLow := false
  drum := ⟨false, false⟩
  ram := ⟨false, false⟩

/-- POWER_LOSS: the part stops, its nonvolatile contents and its backup-supplied clock stay (R1, R28;
log entry 11). -/
def onPowerLoss (phases : Nat) (run : AppendRun) (s : State) : Host.Outcome State Fault Refusal :=
  .next <| s.whenPowered fun s =>
    let t := s.restart unpoweredPins (fun _ => .disabled) phases run
    { t with powered := false }

end Sys2Proof.Machine
end

