-- ==== Sys2Proof/Machine/Status.lean ====
section
/-! DEFINITION. What the masters see: PART_STATUS with its sections (R192), READ_EVENTS, CLEAR_EVENTS,
SET_MASK (R190). -/

namespace Sys2Proof.Machine

/-! ## Section 0: General (R192) -/

/-- The staging holder: port number + 1, or 0. -/
def holderCode (x : Option Staging) : Nat :=
  match x with
  | some y => y.holder.val + 1
  | none => 0

/-- The state of each panel from number n on, 0 for a panel not in use. -/
def panelStates (count : Nat) : Nat → List Panel → List Byte
  | _, [] => []
  | n, x :: rest => enc8 (if n ≤ count then x.state.code else 0) ++ panelStates count (n + 1) rest

/-- Section 0 (R28, R40, R72, R90, R170, R178, R192). -/
def sectionGeneral (s : State) : List Byte :=
  enc8 (startCauseCode s.startCause) ++ encFlag s.clock.running ++ encTime s.clock.time ++
    enc8 s.marks.length ++ enc8 s.journal.state.code ++ enc16 s.journal.count ++
    enc32 s.journal.appendPoint ++ enc32 s.journal.room ++ enc8 (holderCode s.staging) ++
    enc8 s.settings.panelCount ++ panelStates s.settings.panelCount 1 s.panels ++
    encFlag s.supply.latched ++ encFlag (!s.supply.lineAsserted) ++ enc8 s.winch.state.code ++
    enc8 s.grout.state.code ++ enc8 s.stress.state.code

/-! ## Section 1: Supply and outputs (R72, R192) -/

/-- An engine's claim status and granted flow. -/
def encFlow (f : FlowState) : List Byte := enc8 f.status.code ++ enc8 f.flow

/-- The three places of the claim queue, unused ones as 0. -/
def encQueue (q : List Claim) : List Byte :=
  ((q.map (fun c : Claim => engineCode c.engine) ++ List.replicate 3 0).take 3).flatMap enc8

/-- An output's set and driven duty. -/
def encOutput (o : Output) : List Byte := enc16 o.set ++ enc16 o.driven

/-- Section 1 (R72, R192). -/
def sectionSupply (s : State) : List Byte :=
  enc8 s.settings.capacity ++ enc8 (s.supply.free s.settings.capacity) ++ encFlow s.supply.winch ++
    encFlow s.supply.grout ++ encFlow s.supply.stress ++ enc8 s.supply.queue.length ++
    encQueue s.supply.queue ++ encOutput s.outputs.winch ++ encOutput s.outputs.pump ++
    encOutput s.outputs.jackAdvance ++ encOutput s.outputs.jackRelease ++ enc16 s.settings.ditherHz

/-! ## Section 2: Measurement (R57, R192) -/

/-- A channel's flags, code and value. -/
def encSample (x : Option Sample) : List Byte :=
  match x with
  | some x => enc8 (1 + bitIf x.saturated 1) ++ enc16 x.code ++ enc16 x.value
  | none => enc8 0 ++ enc16 0 ++ enc16 0

/-- Section 2 (R57, R192). DESIGN CHOICE: paid length, displacement and travel are formed with the scales
in force when the request is decided (log entry 44). -/
def sectionMeasurement (s : State) : List Byte :=
  encSample s.meas.jack ++ enc16 ((s.meas.jack.map Sample.load).getD 0) ++ encSample s.meas.grout ++
    encSample s.meas.tension ++ bytes32 s.meas.drum.count ++ encS32 s.paidLength ++
    bytes32 s.meas.ram.count ++ encS32 s.displacement ++ encS32 s.travel ++
    encFlag s.meas.ramDatum.isSome ++ enc8 s.meas.drum.faults ++ enc8 s.meas.ram.faults ++
    encFlag s.meas.compare.isSome ++ enc32 s.meas.accepted ++ enc16 s.meas.bounce ++
    encFlag s.meas.lastInterval.isSome ++ enc16 (s.meas.lastInterval.getD 0)

/-! ## Sections 3 and 4: Winch, Grout (R105, R128, R192) -/

/-- Section 3 (R105, R192). -/
def sectionWinch (s : State) : List Byte :=
  enc8 s.winch.state.code ++ enc8 ((s.winch.reason.map StopReason.code).getD 0) ++
    encPos s.winch.anchor ++ enc16 (s.winch.slowBoundary.getD 0) ++ encS32 s.winch.paid ++
    enc16 s.winch.tension ++ enc8 s.winch.jamCount ++ encFlag s.winch.jamTiming ++
    enc16 s.outputs.winch.set

/-- A mark's kind and due time; an absent one is 0. -/
def encMark (m : Option Mark) : List Byte :=
  match m with
  | some m => enc8 m.name.code ++ encTime m.due
  | none => List.replicate 7 0

/-- The mark the grout engine holds. -/
def State.groutMark (s : State) : Option Mark :=
  s.marks.find? fun m => m.name == .coldJoint || m.name == .refusal

/-- A queued batch in section 4. -/
def encBatch (b : Batch) : List Byte :=
  enc16 b.id ++ enc32 b.mixTime ++ enc16 b.ratio ++ enc16 b.volume ++ enc16 b.remaining ++
    enc32 b.expiry

/-- Section 4 (R128, R192). -/
def sectionGrout (s : State) : List Byte :=
  enc8 s.grout.state.code ++ enc8 ((s.grout.pause.map PauseReason.code).getD 0) ++
    encPos s.grout.anchor ++ enc8 ((s.grout.mode.map GroutMode.code).getD 0) ++
    enc16 (s.grout.limit.getD 0) ++ enc16 s.grout.injected ++ enc16 s.grout.strokes ++
    enc16 s.grout.unattributed ++ enc8 s.grout.batchIds.length ++ encIds s.grout.batchIds ++
    enc8 s.grout.extra ++ enc16 s.grout.peak ++ enc16 ((s.grout.latest.map Prod.fst).getD 0) ++
    (match s.grout.latest with
      | some x => encFlag x.2
      | none => enc8 0) ++
    enc16 s.outputs.pump.set ++ encMark s.groutMark ++ enc8 s.batches.length ++
    fitBytes 64 (s.batches.flatMap encBatch)

/-! ## Sections 5 and 6: Stress, Lock-off (R153, R158, R192) -/

/-- The flags of section 5: extended, making up, accepted, trip wait. -/
def stressFlags (e : Stress) : Nat :=
  bitIf e.extended 0 + bitIf e.makingUp 1 + bitIf e.accepted 2 + bitIf e.tripWait 3

/-- The latest jack sample in section 5: p, L, over-range, s, travel. -/
def encJackView (v : Option JackView) : List Byte :=
  match v with
  | some v =>
    enc16 v.pressure ++ enc16 v.load ++ encFlag v.saturated ++ encS32 v.disp ++ encS32 v.travel
  | none => List.replicate 13 0

/-- The marks the stress engine holds (R153). DESIGN CHOICE: in the order of the mark list (log entry
40). -/
def State.stressMarks (s : State) : List Mark := s.marks.filter fun m => m.name.ofStress

/-- Section 5 (R153, R192). -/
def sectionStress (s : State) : List Byte :=
  let e := s.stress
  enc8 e.state.code ++ encPos e.anchor ++ enc8 (e.profileNo.getD 0) ++ enc8 (e.step.getD 0) ++
    enc16 (e.targetAt (e.step.getD 0)) ++ enc8 ((e.present.map fun st => st.role.code).getD 0) ++
    encTime (e.holdStart.getD 0) ++ enc8 (stressFlags e) ++
    enc8 ((e.pendingEnd.map TestCode.code).getD 0) ++
    enc16 ((e.suspension.map Suspension.load).getD 0) ++
    enc8 ((e.suspension.map fun x => x.resume.code).getD 0) ++ enc16 (e.pLock.getD 0) ++
    encJackView e.latest ++ enc16 e.makeUps ++ enc8 e.suspensions ++ enc8 e.log.length ++
    fitBytes 12 ((e.log.getLast?.map encReading).getD []) ++ enc8 e.creep.length ++
    fitBytes 24 (e.creep.flatMap encCreep) ++ enc16 s.outputs.jackAdvance.set ++
    enc16 s.outputs.jackRelease.set ++ enc8 s.stressMarks.length ++
    fitBytes 21 (s.stressMarks.flatMap fun m => encMark (some m))

/-- Section 6 (R158, R192). -/
def sectionLockOff (s : State) : List Byte :=
  let k := s.stress.lock
  enc16u (k.target.getD 0) ++ enc8 k.retries ++ encS32 (k.sLock.getD 0) ++ encS32 (k.sSeat.getD 0) ++
    encS32 (k.drawIn.getD 0) ++ encS32 (k.point.getD 0) ++ encFlag k.residual.isSome ++
    enc16 (k.residual.getD 0) ++ encFlag k.notLifted ++ enc8 k.hold.code ++
    enc8 ((k.result.map TestCode.code).getD 0)

/-! ## PART_STATUS (R192) -/

/-- The bytes of a section, if there is one with that number (R192). -/
def statusSection (s : State) : Nat → Option (List Byte)
  | 0 => some (sectionGeneral s)
  | 1 => some (sectionSupply s)
  | 2 => some (sectionMeasurement s)
  | 3 => some (sectionWinch s)
  | 4 => some (sectionGrout s)
  | 5 => some (sectionStress s)
  | 6 => some (sectionLockOff s)
  | _ => none

/-- PART_STATUS as the port decides it (R192). DESIGN CHOICE: a wrong parameter length is BAD_FORM (log
entry 36). -/
def decidePartStatus (ps : List Byte) (s : State) : Decision :=
  if ps.length ≠ 1 then refuse .badForm s
  else
    match statusSection s (byteAt ps 0) with
    | some data => .reply .ok data s
    | none => refuse .outOfRange s

/-- PART_STATUS (R192). -/
def onPartStatus (p : PortNo) (form : List Byte) (s : State) : Host.Outcome State Fault Refusal :=
  submit p 0x58 form .every false decidePartStatus s

/-! ## Events (R190) -/

/-- READ_EVENTS as a port decides it (R190). DESIGN CHOICE: a wrong parameter length is BAD_FORM (log
entry 36). -/
def decideReadEvents (p : PortNo) (ps : List Byte) (s : State) : Decision :=
  if ps.length ≠ 0 then refuse .badForm s
  else
    .reply .ok
      (enc8 (s.ports.get p).lowestPending ++ bytes16 (s.ports.get p).flags ++
        bytes16 (s.ports.get p).mask) s

/-- READ_EVENTS (R190). -/
def onReadEvents (p : PortNo) (form : List Byte) (s : State) : Host.Outcome State Fault Refusal :=
  submit p 0x50 form .every false (decideReadEvents p) s

/-- A port with some flags made clear (R190). -/
def Port.clearFlags (set : BitVec 16) (q : Port) : Port := { q with flags := q.flags &&& ~~~set }

/-- CLEAR_EVENTS as a port decides it (R190). DESIGN CHOICE: a wrong parameter length is BAD_FORM (log
entry 36). -/
def decideClearEvents (p : PortNo) (ps : List Byte) (s : State) : Decision :=
  if ps.length ≠ 2 then refuse .badForm s
  else
    .reply .ok (bytes16 ((s.ports.get p).flags &&& ~~~setAt ps 0))
      (s.modifyPort p (Port.clearFlags (setAt ps 0)))

/-- CLEAR_EVENTS (R190). -/
def onClearEvents (p : PortNo) (form : List Byte) (s : State) :
    Host.Outcome State Fault Refusal :=
  submit p 0x51 form .every false (decideClearEvents p) s

/-- SET_MASK as a port decides it (R190). DESIGN CHOICE: a wrong parameter length is BAD_FORM (log
entry 36). -/
def decideSetMask (p : PortNo) (ps : List Byte) (s : State) : Decision :=
  if ps.length ≠ 2 then refuse .badForm s
  else .reply .ok [] (s.modifyPort p fun q => { q with mask := setAt ps 0 })

/-- SET_MASK (R190). -/
def onSetMask (p : PortNo) (form : List Byte) (s : State) : Host.Outcome State Fault Refusal :=
  submit p 0x52 form .every false (decideSetMask p) s

end Sys2Proof.Machine
end

