-- ==== Sys2Proof/Machine/Transfers.lean ====
section
/-! DEFINITION. Write transfers: MAILBOX_WRITE and UNKNOWN_REQUEST_SUBMISSION (R182, R183, R184). -/

namespace Sys2Proof.Machine

/-- A submission with a code and the bytes it writes from offset 01h on, handed on by its code
(R184, R187). -/
def submission (p : PortNo) (code : Byte) (form : List Byte) (s : State) :
    Host.Outcome State Fault Refusal :=
  match code.toNat with
  | 0x01 => onDeclare p form s
  | 0x02 => onWithdraw p form s
  | 0x03 => onAbandon p form s
  | 0x04 => onSeek p form s
  | 0x05 => onNext p form s
  | 0x06 => onInspect p form s
  | 0x10 => onStartWinch p form s
  | 0x11 => onContinueWinch p form s
  | 0x12 => onAbortWinch p form s
  | 0x18 => onStartGrout p form s
  | 0x19 => onContinueGrout p form s
  | 0x1A => onAbortGrout p form s
  | 0x20 => onStartTest p form s
  | 0x21 => onAbortTest p form s
  | 0x28 => onClearTrip p form s
  | 0x30 => onPostBatch p form s
  | 0x31 => onDiscardBatch p form s
  | 0x38 => onPostWall p form s
  | 0x39 => onSetTime p form s
  | 0x3A => onShiftTime p form s
  | 0x40 => onReadPanels p form s
  | 0x41 => onReadJournal p form s
  | 0x48 => onStageSetting p form s
  | 0x49 => onStageProfile p form s
  | 0x4A => onDropStaging p form s
  | 0x4B => onCommitSettings p form s
  | 0x50 => onReadEvents p form s
  | 0x51 => onClearEvents p form s
  | 0x52 => onSetMask p form s
  | 0x58 => onPartStatus p form s
  | _ => submitUnknown p code form s

/-- MAILBOX_WRITE: a transfer from offset 00h that stores at least two bytes and ends with a stop is
a submission; any other stores what the port acknowledges (R182, R183; log entry 22). -/
def onMailboxWrite (p : PortNo) (offset : Byte) (bytes : List Byte) (stop : Bool) (s : State) :
    Host.Outcome State Fault Refusal :=
  match bytes with
  | code :: b :: rest =>
    if offset = 0 ∧ stop then submission p code (b :: rest) s
    else .next (s.storeAt p offset.toNat bytes)
  | _ => .next (s.storeAt p offset.toNat bytes)

/-- UNKNOWN_REQUEST_SUBMISSION (R184): a submission with its code. -/
def onUnknownRequestSubmission (p : PortNo) (code : Byte) (form : List Byte) (s : State) :
    Host.Outcome State Fault Refusal :=
  submission p code form s

end Sys2Proof.Machine
end

