-- ==== Sys2Proof/Machine/Commands.lean ====
section
/-! DEFINITION. The commands but the expiries: before one is handled every mark that is due expires
(R33, R39; log entry 5), so each is its block's own operation `on...` on the state that leaves. -/

namespace Sys2Proof.Machine

/-- START_UP (R1, R25, R28, R40, R56, R59, R67, R70, R83, R107, R132, R174, R181, R183, R189). -/
def execStartUp (cause : StartCause) (pins : StartPins) (phases : Nat) (run : AppendRun)
    (s : State) : Host.Outcome State Fault Refusal :=
  onStartUp cause pins phases run s.expireDue

/-- MAILBOX_WRITE (R182, R183). -/
def execMailboxWrite (p : PortNo) (offset : Byte) (bytes : List Byte) (stop : Bool) (s : State) :
    Host.Outcome State Fault Refusal :=
  onMailboxWrite p offset bytes stop s.expireDue

/-- DECLARE (R19). -/
def execDeclare (p : PortNo) (form : List Byte) (s : State) : Host.Outcome State Fault Refusal :=
  onDeclare p form s.expireDue

/-- WITHDRAW (R20). -/
def execWithdraw (p : PortNo) (form : List Byte) (s : State) : Host.Outcome State Fault Refusal :=
  onWithdraw p form s.expireDue

/-- ABANDON (R21). -/
def execAbandon (p : PortNo) (form : List Byte) (s : State) : Host.Outcome State Fault Refusal :=
  onAbandon p form s.expireDue

/-- SEEK (R22). -/
def execSeek (p : PortNo) (form : List Byte) (s : State) : Host.Outcome State Fault Refusal :=
  onSeek p form s.expireDue

/-- NEXT (R23). -/
def execNext (p : PortNo) (form : List Byte) (s : State) : Host.Outcome State Fault Refusal :=
  onNext p form s.expireDue

/-- INSPECT (R24). -/
def execInspect (p : PortNo) (form : List Byte) (s : State) : Host.Outcome State Fault Refusal :=
  onInspect p form s.expireDue

/-- START_WINCH (R93, R94). -/
def execStartWinch (p : PortNo) (form : List Byte) (s : State) : Host.Outcome State Fault Refusal :=
  onStartWinch p form s.expireDue

/-- CONTINUE_WINCH (R103). -/
def execContinueWinch (p : PortNo) (form : List Byte) (s : State) :
    Host.Outcome State Fault Refusal :=
  onContinueWinch p form s.expireDue

/-- ABORT_WINCH (R104). -/
def execAbortWinch (p : PortNo) (form : List Byte) (s : State) : Host.Outcome State Fault Refusal :=
  onAbortWinch p form s.expireDue

/-- START_GROUT (R117, R118). -/
def execStartGrout (p : PortNo) (form : List Byte) (s : State) : Host.Outcome State Fault Refusal :=
  onStartGrout p form s.expireDue

/-- CONTINUE_GROUT (R126). -/
def execContinueGrout (p : PortNo) (form : List Byte) (s : State) :
    Host.Outcome State Fault Refusal :=
  onContinueGrout p form s.expireDue

/-- ABORT_GROUT (R127). -/
def execAbortGrout (p : PortNo) (form : List Byte) (s : State) : Host.Outcome State Fault Refusal :=
  onAbortGrout p form s.expireDue

/-- START_TEST (R134, R135). -/
def execStartTest (p : PortNo) (form : List Byte) (s : State) : Host.Outcome State Fault Refusal :=
  onStartTest p form s.expireDue

/-- ABORT_TEST (R150). -/
def execAbortTest (p : PortNo) (form : List Byte) (s : State) : Host.Outcome State Fault Refusal :=
  onAbortTest p form s.expireDue

/-- CLEAR_TRIP (R66). -/
def execClearTrip (p : PortNo) (form : List Byte) (s : State) : Host.Outcome State Fault Refusal :=
  onClearTrip p form s.expireDue

/-- POST_BATCH (R108, R109). -/
def execPostBatch (p : PortNo) (form : List Byte) (s : State) : Host.Outcome State Fault Refusal :=
  onPostBatch p form s.expireDue

/-- DISCARD_BATCH (R111). -/
def execDiscardBatch (p : PortNo) (form : List Byte) (s : State) :
    Host.Outcome State Fault Refusal :=
  onDiscardBatch p form s.expireDue

/-- POST_WALL (R76, R78, R39). -/
def execPostWall (p : PortNo) (form : List Byte) (s : State) : Host.Outcome State Fault Refusal :=
  onPostWall p form s.expireDue

/-- SET_TIME (R31, R33, R39). -/
def execSetTime (p : PortNo) (form : List Byte) (s : State) : Host.Outcome State Fault Refusal :=
  onSetTime p form s.expireDue

/-- SHIFT_TIME (R32). -/
def execShiftTime (p : PortNo) (form : List Byte) (s : State) : Host.Outcome State Fault Refusal :=
  onShiftTime p form s.expireDue

/-- READ_PANELS (R90). -/
def execReadPanels (p : PortNo) (form : List Byte) (s : State) : Host.Outcome State Fault Refusal :=
  onReadPanels p form s.expireDue

/-- READ_JOURNAL (R177). -/
def execReadJournal (p : PortNo) (form : List Byte) (s : State) :
    Host.Outcome State Fault Refusal :=
  onReadJournal p form s.expireDue

/-- STAGE_SETTING (R178). -/
def execStageSetting (p : PortNo) (form : List Byte) (s : State) :
    Host.Outcome State Fault Refusal :=
  onStageSetting p form s.expireDue

/-- STAGE_PROFILE (R179). -/
def execStageProfile (p : PortNo) (form : List Byte) (s : State) :
    Host.Outcome State Fault Refusal :=
  onStageProfile p form s.expireDue

/-- DROP_STAGING (R179). -/
def execDropStaging (p : PortNo) (form : List Byte) (s : State) :
    Host.Outcome State Fault Refusal :=
  onDropStaging p form s.expireDue

/-- COMMIT_SETTINGS (R180). -/
def execCommitSettings (p : PortNo) (form : List Byte) (s : State) :
    Host.Outcome State Fault Refusal :=
  onCommitSettings p form s.expireDue

/-- READ_EVENTS (R190). -/
def execReadEvents (p : PortNo) (form : List Byte) (s : State) : Host.Outcome State Fault Refusal :=
  onReadEvents p form s.expireDue

/-- CLEAR_EVENTS (R190). -/
def execClearEvents (p : PortNo) (form : List Byte) (s : State) :
    Host.Outcome State Fault Refusal :=
  onClearEvents p form s.expireDue

/-- SET_MASK (R190). -/
def execSetMask (p : PortNo) (form : List Byte) (s : State) : Host.Outcome State Fault Refusal :=
  onSetMask p form s.expireDue

/-- PART_STATUS (R192). -/
def execPartStatus (p : PortNo) (form : List Byte) (s : State) : Host.Outcome State Fault Refusal :=
  onPartStatus p form s.expireDue

/-- TRIP_LINE_ASSERTION (R64, R65). -/
def execTripLineAssertion (s : State) : Host.Outcome State Fault Refusal :=
  onTripLineAssertion s.expireDue

/-- TRIP_LINE_RELEASE (R64). -/
def execTripLineRelease (s : State) : Host.Outcome State Fault Refusal :=
  onTripLineRelease s.expireDue

/-- TRIP_NOTICE (R65, R101, R125, R151, R166). -/
def execTripNotice (e : Engine) (s : State) : Host.Outcome State Fault Refusal :=
  onTripNotice e s.expireDue

/-- CLEAR_NOTICE (R66, R151, R167). -/
def execClearNotice (e : Engine) (s : State) : Host.Outcome State Fault Refusal :=
  onClearNotice e s.expireDue

/-- CLAIM (R60, R61, R62). -/
def execClaim (e : Engine) (s : State) : Host.Outcome State Fault Refusal :=
  onClaim e s.expireDue

/-- GRANT (R62, R95, R119, R136, R167). -/
def execGrant (e : Engine) (s : State) : Host.Outcome State Fault Refusal :=
  onGrant e s.expireDue

/-- RELEASE (R63). -/
def execRelease (e : Engine) (s : State) : Host.Outcome State Fault Refusal :=
  onRelease e s.expireDue

/-- TENSION_SAMPLE (R43, R47, R50, R96). -/
def execTensionSample (code : BitVec 12) (s : State) : Host.Outcome State Fault Refusal :=
  onTensionSample code s.expireDue

/-- GROUT_SAMPLE (R43, R45, R123). -/
def execGroutSample (code : BitVec 12) (s : State) : Host.Outcome State Fault Refusal :=
  onGroutSample code s.expireDue

/-- JACK_SAMPLE (R43, R45, R46, R51, R137). -/
def execJackSample (code : BitVec 12) (s : State) : Host.Outcome State Fault Refusal :=
  onJackSample code s.expireDue

/-- COUNT_STEP (R48, R49, R55). -/
def execCountStep (enc : Encoder) (pair : PhasePair) (s : State) :
    Host.Outcome State Fault Refusal :=
  onCountStep enc pair s.expireDue

/-- LIFT_OFF_CAPTURE (R55, R161). -/
def execLiftOffCapture (s : State) : Host.Outcome State Fault Refusal :=
  onLiftOffCapture s.expireDue

/-- STROKE_EDGE (R53). -/
def execStrokeEdge (s : State) : Host.Outcome State Fault Refusal :=
  onStrokeEdge s.expireDue

/-- STROKE (R54, R120). -/
def execStroke (s : State) : Host.Outcome State Fault Refusal :=
  onStroke s.expireDue

/-- PANEL_CHANGE_DELIVERY (R80, R145). -/
def execPanelChangeDelivery (s : State) : Host.Outcome State Fault Refusal :=
  onPanelChangeDelivery s.expireDue

/-- APPEND_COMPLETION (R171, R172). -/
def execAppendCompletion (run : AppendRun) (s : State) : Host.Outcome State Fault Refusal :=
  onAppendCompletion run s.expireDue

/-- SITE_CLOCK_TICK (R27, R28). -/
def execSiteClockTick (s : State) : Host.Outcome State Fault Refusal :=
  onSiteClockTick s.expireDue

/-- STROKE_TIMER_TICK (R53). -/
def execStrokeTimerTick (s : State) : Host.Outcome State Fault Refusal :=
  onStrokeTimerTick s.expireDue

/-- VALVE_PERIOD_START (R69). -/
def execValvePeriodStart (v : Valve) (s : State) : Host.Outcome State Fault Refusal :=
  onValvePeriodStart v s.expireDue

/-- START_UP_SCAN_DONE (R184). -/
def execStartUpScanDone (run : ScanRun) (s : State) : Host.Outcome State Fault Refusal :=
  onStartUpScanDone run s.expireDue

/-- UNKNOWN_REQUEST_SUBMISSION (R184). -/
def execUnknownRequestSubmission (p : PortNo) (code : Byte) (form : List Byte) (s : State) :
    Host.Outcome State Fault Refusal :=
  onUnknownRequestSubmission p code form s.expireDue

/-- POWER_LOSS (R1, R28). -/
def execPowerLoss (phases : Nat) (run : AppendRun) (s : State) : Host.Outcome State Fault Refusal :=
  onPowerLoss phases run s.expireDue

/-- CLOCK_DOMAIN_SUPPLY_LOSS (R27, R28). -/
def execClockDomainSupplyLoss (s : State) : Host.Outcome State Fault Refusal :=
  onClockDomainSupplyLoss s.expireDue

end Sys2Proof.Machine
end

