-- ==== Sys2Proof/Machine/Dispatch.lean ====
section
/-! DEFINITION. The one dispatch: an arm per command. -/

namespace Sys2Proof.Machine

def exec (i : Instr) (s : State) : Host.Outcome State Fault Refusal :=
  match i with
  | .startUp cause pins phases run => Sys2Proof.Machine.execStartUp cause pins phases run s
  | .mailboxWrite p offset bytes stop => Sys2Proof.Machine.execMailboxWrite p offset bytes stop s
  | .declare p form => Sys2Proof.Machine.execDeclare p form s
  | .withdraw p form => Sys2Proof.Machine.execWithdraw p form s
  | .abandon p form => Sys2Proof.Machine.execAbandon p form s
  | .seek p form => Sys2Proof.Machine.execSeek p form s
  | .nextRecord p form => Sys2Proof.Machine.execNext p form s
  | .inspect p form => Sys2Proof.Machine.execInspect p form s
  | .startWinch p form => Sys2Proof.Machine.execStartWinch p form s
  | .continueWinch p form => Sys2Proof.Machine.execContinueWinch p form s
  | .abortWinch p form => Sys2Proof.Machine.execAbortWinch p form s
  | .startGrout p form => Sys2Proof.Machine.execStartGrout p form s
  | .continueGrout p form => Sys2Proof.Machine.execContinueGrout p form s
  | .abortGrout p form => Sys2Proof.Machine.execAbortGrout p form s
  | .startTest p form => Sys2Proof.Machine.execStartTest p form s
  | .abortTest p form => Sys2Proof.Machine.execAbortTest p form s
  | .clearTrip p form => Sys2Proof.Machine.execClearTrip p form s
  | .postBatch p form => Sys2Proof.Machine.execPostBatch p form s
  | .discardBatch p form => Sys2Proof.Machine.execDiscardBatch p form s
  | .postWall p form => Sys2Proof.Machine.execPostWall p form s
  | .setTime p form => Sys2Proof.Machine.execSetTime p form s
  | .shiftTime p form => Sys2Proof.Machine.execShiftTime p form s
  | .readPanels p form => Sys2Proof.Machine.execReadPanels p form s
  | .readJournal p form => Sys2Proof.Machine.execReadJournal p form s
  | .stageSetting p form => Sys2Proof.Machine.execStageSetting p form s
  | .stageProfile p form => Sys2Proof.Machine.execStageProfile p form s
  | .dropStaging p form => Sys2Proof.Machine.execDropStaging p form s
  | .commitSettings p form => Sys2Proof.Machine.execCommitSettings p form s
  | .readEvents p form => Sys2Proof.Machine.execReadEvents p form s
  | .clearEvents p form => Sys2Proof.Machine.execClearEvents p form s
  | .setMask p form => Sys2Proof.Machine.execSetMask p form s
  | .partStatus p form => Sys2Proof.Machine.execPartStatus p form s
  | .tripLineAssertion => Sys2Proof.Machine.execTripLineAssertion s
  | .tripLineRelease => Sys2Proof.Machine.execTripLineRelease s
  | .tripNotice e => Sys2Proof.Machine.execTripNotice e s
  | .clearNotice e => Sys2Proof.Machine.execClearNotice e s
  | .claim e => Sys2Proof.Machine.execClaim e s
  | .grant e => Sys2Proof.Machine.execGrant e s
  | .release e => Sys2Proof.Machine.execRelease e s
  | .tensionSample code => Sys2Proof.Machine.execTensionSample code s
  | .groutSample code => Sys2Proof.Machine.execGroutSample code s
  | .jackSample code => Sys2Proof.Machine.execJackSample code s
  | .countStep enc pair => Sys2Proof.Machine.execCountStep enc pair s
  | .liftOffCapture => Sys2Proof.Machine.execLiftOffCapture s
  | .strokeEdge => Sys2Proof.Machine.execStrokeEdge s
  | .stroke => Sys2Proof.Machine.execStroke s
  | .stalenessExpiry panel => Sys2Proof.Machine.execStalenessExpiry panel s
  | .batchExpiry id => Sys2Proof.Machine.execBatchExpiry id s
  | .jamExpiry => Sys2Proof.Machine.execJamExpiry s
  | .coldJointExpiry => Sys2Proof.Machine.execColdJointExpiry s
  | .refusalExpiry => Sys2Proof.Machine.execRefusalExpiry s
  | .creepExpiry => Sys2Proof.Machine.execCreepExpiry s
  | .holdEndExpiry => Sys2Proof.Machine.execHoldEndExpiry s
  | .seatExpiry => Sys2Proof.Machine.execSeatExpiry s
  | .suspensionExpiry => Sys2Proof.Machine.execSuspensionExpiry s
  | .panelChangeDelivery => Sys2Proof.Machine.execPanelChangeDelivery s
  | .appendCompletion run => Sys2Proof.Machine.execAppendCompletion run s
  | .siteClockTick => Sys2Proof.Machine.execSiteClockTick s
  | .strokeTimerTick => Sys2Proof.Machine.execStrokeTimerTick s
  | .valvePeriodStart v => Sys2Proof.Machine.execValvePeriodStart v s
  | .startUpScanDone run => Sys2Proof.Machine.execStartUpScanDone run s
  | .unknownRequestSubmission p code form => Sys2Proof.Machine.execUnknownRequestSubmission p code form s
  | .powerLoss phases run => Sys2Proof.Machine.execPowerLoss phases run s
  | .clockDomainSupplyLoss => Sys2Proof.Machine.execClockDomainSupplyLoss s

end Sys2Proof.Machine
end

