-- ==== Sys2Proof/WellFormed.lean ====
section
/-! DEFINITION. The checks on a command as syntax: the bounds that the rules put on its operands.
`exec` is total and does not need them. -/

namespace Sys2Proof

/-- The codes of the request catalogue (R187). -/
def catalogue : List Byte :=
  [0x01, 0x02, 0x03, 0x04, 0x05, 0x06, 0x10, 0x11, 0x12, 0x18, 0x19, 0x1A, 0x20, 0x21, 0x28] ++
    [0x30, 0x31, 0x38, 0x39, 0x3A, 0x40, 0x41, 0x48, 0x49, 0x4A, 0x4B, 0x50, 0x51, 0x52, 0x58]

/-- A submission writes at least one byte past the code, and at most to the end of the request
area (R182, R183). -/
def formOk (form : List Byte) : Bool := 1 ≤ form.length && form.length ≤ 127

/-- A readback of an index entry has eight bytes (R168). -/
def entryReadOk (x : Option (List Byte)) : Bool :=
  match x with
  | some bs => bs.length == 8
  | none => true

/-- A readback of the header has 32 bytes (R168). -/
def headerReadOk (x : Option (List Byte)) : Bool :=
  match x with
  | some bs => bs.length == 32
  | none => true

/-- The entry readbacks of an append's run (R171, R172). -/
def AppendRun.ok (run : AppendRun) : Bool := entryReadOk run.entry && entryReadOk run.retryEntry

/-- An append makes at most four programmings: record, entry, retried record, entry (R171, R172). -/
def phasesOk (phases : Nat) : Bool := phases ≤ 4

/-- Whether a command's operands keep their bounds. -/
def Instr.wellFormed : Instr → Bool
  | .startUp _ _ phases run => phasesOk phases && run.ok
  | .powerLoss phases run => phasesOk phases && run.ok
  | .appendCompletion run => run.ok
  | .startUpScanDone run => headerReadOk run.header && entryReadOk run.spoiledEntry
  | .mailboxWrite _ _ bytes _ => bytes.length ≤ 256
  | .unknownRequestSubmission _ code form => !catalogue.contains code && formOk form
  | .declare _ form => formOk form
  | .withdraw _ form => formOk form
  | .abandon _ form => formOk form
  | .seek _ form => formOk form
  | .nextRecord _ form => formOk form
  | .inspect _ form => formOk form
  | .startWinch _ form => formOk form
  | .continueWinch _ form => formOk form
  | .abortWinch _ form => formOk form
  | .startGrout _ form => formOk form
  | .continueGrout _ form => formOk form
  | .abortGrout _ form => formOk form
  | .startTest _ form => formOk form
  | .abortTest _ form => formOk form
  | .clearTrip _ form => formOk form
  | .postBatch _ form => formOk form
  | .discardBatch _ form => formOk form
  | .postWall _ form => formOk form
  | .setTime _ form => formOk form
  | .shiftTime _ form => formOk form
  | .readPanels _ form => formOk form
  | .readJournal _ form => formOk form
  | .stageSetting _ form => formOk form
  | .stageProfile _ form => formOk form
  | .dropStaging _ form => formOk form
  | .commitSettings _ form => formOk form
  | .readEvents _ form => formOk form
  | .clearEvents _ form => formOk form
  | .setMask _ form => formOk form
  | .partStatus _ form => formOk form
  | .tripLineAssertion => true
  | .tripLineRelease => true
  | .tripNotice _ => true
  | .clearNotice _ => true
  | .claim _ => true
  | .grant _ => true
  | .release _ => true
  | .tensionSample _ => true
  | .groutSample _ => true
  | .jackSample _ => true
  | .countStep _ _ => true
  | .liftOffCapture => true
  | .strokeEdge => true
  | .stroke => true
  | .stalenessExpiry panel => 1 ≤ panel && panel ≤ 32
  | .batchExpiry id => 1 ≤ id && id ≤ 65535
  | .jamExpiry => true
  | .coldJointExpiry => true
  | .refusalExpiry => true
  | .creepExpiry => true
  | .holdEndExpiry => true
  | .seatExpiry => true
  | .suspensionExpiry => true
  | .panelChangeDelivery => true
  | .siteClockTick => true
  | .strokeTimerTick => true
  | .valvePeriodStart _ => true
  | .clockDomainSupplyLoss => true

end Sys2Proof
end

