-- ==== Sys2Proof/Safety.lean ====
section
/-! DEFINITION. What counts as a safe state: the properties of the whole machine that the manual states
in its prose, as checks on a state. -/

namespace Sys2Proof.Machine

/-! ## Valve outputs (R68, R69, R70) -/

/-- A duty is 0..1000, and an output whose set duty is 0 is not driven (R68, R69). -/
def Output.sound (o : Output) : Bool :=
  o.set ≤ 1000 && o.driven ≤ 1000 && (o.set != 0 || o.driven == 0)

/-- An output that is off. -/
def Output.isOff (o : Output) : Bool := o.set == 0 && o.driven == 0

/-- Every output is sound, and the two jack outputs never have a set duty together (R68). -/
def Outputs.sound (os : Outputs) : Bool :=
  os.winch.sound && os.pump.sound && os.jackAdvance.sound && os.jackRelease.sound &&
    (os.jackAdvance.set == 0 || os.jackRelease.set == 0)

/-- Every output is off. -/
def Outputs.isOff (os : Outputs) : Bool :=
  os.winch.isOff && os.pump.isOff && os.jackAdvance.isOff && os.jackRelease.isOff

/-! ## The trip (R62, R65, R70) -/

/-- While the trip is latched no flow is granted, no claim waits and every output is off. -/
def State.tripSafe (s : State) : Bool :=
  !s.supply.latched ||
    (s.supply.winch == .idle && s.supply.grout == .idle && s.supply.stress == .idle &&
      s.supply.queue.isEmpty && s.outputs.isOff)

/-! ## The mark list (R34, R35) -/

/-- Marks in non-decreasing order of due time. -/
def marksSorted : List Mark → Bool
  | [] => true
  | m :: rest => rest.all (fun x => m.due ≤ x.due) && marksSorted rest

/-- No two marks of one name. -/
def marksDistinct : List Mark → Bool
  | [] => true
  | m :: rest => rest.all (fun x => x.name != m.name) && marksDistinct rest

/-- The mark list keeps its order, with one mark of each name at most. -/
def marksSound (ms : List Mark) : Bool := marksSorted ms && marksDistinct ms

/-! ## The anchor register (R1, R2, R7) -/

/-- Records in ascending order of position, no two alike (R1). -/
def recordsSorted : List Anchor → Bool
  | [] => true
  | a :: rest => rest.all (fun b => a.pos.lt b.pos) && recordsSorted rest

/-- The register holds at most 512 records at valid positions, in ascending order (R1, R2). -/
def Register.sound (r : Register) : Bool :=
  recordsSorted r.records && r.records.all (fun a => a.pos.valid) &&
    r.records.length ≤ Config.maxRecords

/-- The test count is at most 4; a TESTING record leaves a place for the end of its test and returns
to GROUTED or FAILED, and a GROUTING record returns, if its work names a state, to SHORT or FAILED
(R4, R7, R13, R14). -/
def Anchor.testSound (a : Anchor) : Bool :=
  a.testPart.count ≤ 4 &&
    match a.state with
    | .testing => a.testPart.count ≤ 3 && (a.returnState == .grouted || a.returnState == .failed)
    | .grouting => a.returnState == .grouting || a.returnState == .short || a.returnState == .failed
    | _ => true

/-- Every record keeps the bound of its test count (R7). -/
def Register.testsSound (r : Register) : Bool := r.records.all Anchor.testSound

/-! ## The ports (R181, R183) -/

/-- A mailbox has 256 bytes, and in BUSY and DONE offset 80h shows its state (R183). -/
def Port.mailSound (p : Port) : Bool :=
  p.mem.length == 256 &&
    match p.mailState with
    | .empty => true
    | .busy => byteAt p.mem 128 == 2
    | .done => byteAt p.mem 128 == 3

/-- A DISABLED port holds no event flags (R181). -/
def Port.flagsSound (p : Port) : Bool := p.role != .disabled || p.flags == 0

/-- Every port is sound. -/
def Ports.sound (ps : Ports) : Bool :=
  ps.lp0.mailSound && ps.lp1.mailSound && ps.lp2.mailSound && ps.lp3.mailSound &&
    ps.lp0.flagsSound && ps.lp1.flagsSound && ps.lp2.flagsSound && ps.lp3.flagsSound

/-! ## The settings (R58, R73, R112, R131) -/

/-- The relations that clamping keeps: demands at most C, action above alert, grout max at least
refusal + 100, jack max at most jack FS. -/
def Settings.related (c : Settings) : Bool :=
  c.winchDemand ≤ c.capacity && c.groutDemand ≤ c.capacity && c.stressDemand ≤ c.capacity &&
    c.alertLevel < c.actionLevel && c.refusalPressure + 100 ≤ c.groutMax && c.jackMax ≤ c.jackFs

/-- Every setting lies within its range (R42, R58, R69, R73, R91, R112, R131). -/
def Settings.inRange (c : Settings) : Bool :=
  (c.values.zip settingRanges).all fun x => x.2.1 ≤ x.1 && x.1 ≤ x.2.2

/-- Settings in range and related. -/
def Settings.sound (c : Settings) : Bool := c.inRange && c.related

/-- The settings in force and the staging image are sound. -/
def State.settingsSound (s : State) : Bool :=
  s.settings.sound &&
    match s.staging with
    | some x => x.image.sound
    | none => true

/-! ## The panel table and the batch queue (R74, R106) -/

/-- The table has 32 records, and every deflection lies within -3000..3000 (R74). -/
def panelsSound (ps : List Panel) : Bool :=
  ps.length == 32 &&
    ps.all fun x =>
      match x.reading with
      | some r => -3000 ≤ r.1 && r.1 ≤ 3000
      | none => true

/-! ## The journal (R168, R169, R170) -/

/-- The free area, from the append point up to the lowest index entry, is blank. -/
def Journal.freeBlank (j : Journal) : Bool :=
  j.array.all fun c => c.1 < j.appendPoint || j.lowestEntry ≤ c.1

/-- The array is in canonical form; while the journal may append, its free area is blank; an append
is in flight only in APPENDING. -/
def Journal.wellKept (j : Journal) : Bool :=
  j.array.wf && (j.inFlight.isNone || j.state == .appending) &&
    ((j.state != .ready && j.state != .appending) || j.freeBlank)

/-! ## Layouts (R192, R193, R194) -/

/-- Some bytes hold a field at an offset. -/
def holdsAt (bytes : List Byte) (off : Nat) (field : List Byte) : Prop :=
  (bytes.drop off).take field.length = field

/-! ## Requests as the ports see them (R184, R185, R187) -/

/-- A request of the catalogue: its port, its code, the bytes of its submission from offset 01h on,
the roles that may make it, and whether a settings append holds it off. -/
structure Request where
  port : PortNo
  code : Byte
  form : List Byte
  access : Access
  held : Bool
  deriving DecidableEq, Repr

/-- The request that a command is, by the catalogue (R184, R185, R187). -/
def asRequest : Instr → Option Request
  | .declare p form => some ⟨p, 0x01, form, .console, true⟩
  | .withdraw p form => some ⟨p, 0x02, form, .console, false⟩
  | .abandon p form => some ⟨p, 0x03, form, .console, false⟩
  | .seek p form => some ⟨p, 0x04, form, .every, false⟩
  | .nextRecord p form => some ⟨p, 0x05, form, .every, false⟩
  | .inspect p form => some ⟨p, 0x06, form, .every, false⟩
  | .startWinch p form => some ⟨p, 0x10, form, .console, true⟩
  | .continueWinch p form => some ⟨p, 0x11, form, .console, false⟩
  | .abortWinch p form => some ⟨p, 0x12, form, .console, false⟩
  | .startGrout p form => some ⟨p, 0x18, form, .console, true⟩
  | .continueGrout p form => some ⟨p, 0x19, form, .console, false⟩
  | .abortGrout p form => some ⟨p, 0x1A, form, .console, false⟩
  | .startTest p form => some ⟨p, 0x20, form, .console, false⟩
  | .abortTest p form => some ⟨p, 0x21, form, .console, false⟩
  | .clearTrip p form => some ⟨p, 0x28, form, .console, false⟩
  | .postBatch p form => some ⟨p, 0x30, form, .field, false⟩
  | .discardBatch p form => some ⟨p, 0x31, form, .fieldOrConsole, false⟩
  | .postWall p form => some ⟨p, 0x38, form, .survey, false⟩
  | .setTime p form => some ⟨p, 0x39, form, .survey, false⟩
  | .shiftTime p form => some ⟨p, 0x3A, form, .survey, false⟩
  | .readPanels p form => some ⟨p, 0x40, form, .every, false⟩
  | .readJournal p form => some ⟨p, 0x41, form, .every, false⟩
  | .stageSetting p form => some ⟨p, 0x48, form, .console, false⟩
  | .stageProfile p form => some ⟨p, 0x49, form, .console, false⟩
  | .dropStaging p form => some ⟨p, 0x4A, form, .console, false⟩
  | .commitSettings p form => some ⟨p, 0x4B, form, .console, false⟩
  | .readEvents p form => some ⟨p, 0x50, form, .every, false⟩
  | .clearEvents p form => some ⟨p, 0x51, form, .every, false⟩
  | .setMask p form => some ⟨p, 0x52, form, .every, false⟩
  | .partStatus p form => some ⟨p, 0x58, form, .every, false⟩
  | .startUp _ _ _ _ => none
  | .mailboxWrite _ _ _ _ => none
  | .tripLineAssertion => none
  | .tripLineRelease => none
  | .tripNotice _ => none
  | .clearNotice _ => none
  | .claim _ => none
  | .grant _ => none
  | .release _ => none
  | .tensionSample _ => none
  | .groutSample _ => none
  | .jackSample _ => none
  | .countStep _ _ => none
  | .liftOffCapture => none
  | .strokeEdge => none
  | .stroke => none
  | .stalenessExpiry _ => none
  | .batchExpiry _ => none
  | .jamExpiry => none
  | .coldJointExpiry => none
  | .refusalExpiry => none
  | .creepExpiry => none
  | .holdEndExpiry => none
  | .seatExpiry => none
  | .suspensionExpiry => none
  | .panelChangeDelivery => none
  | .appendCompletion _ => none
  | .siteClockTick => none
  | .strokeTimerTick => none
  | .valvePeriodStart _ => none
  | .startUpScanDone _ => none
  | .unknownRequestSubmission _ _ _ => none
  | .powerLoss _ _ => none
  | .clockDomainSupplyLoss => none

/-- The port hands a submission to the block that owns its request: the part runs, no mark is due, the
port is enabled and not BUSY, at least two bytes are stored, the start-up work is done, the parameter length
is at most 126, the role may make the request, and no settings append holds it off (R181..R185). -/
abbrev State.handsOn (s : State) (r : Request) : Prop :=
  s.powered = true ∧ s.noneDue = true ∧ (s.ports.get r.port).role ≠ .disabled ∧
    (s.ports.get r.port).mailState ≠ .busy ∧ r.form ≠ [] ∧ s.ready = true ∧
    ((s.taken r.port r.code r.form).ports.get r.port).formLength ≤ 126 ∧
    r.access.allows (s.ports.get r.port).role = true ∧
    (r.held = true → s.journal.settingsInFlight = false)

/-- The parameters a submission carries (R183). -/
def State.given (s : State) (r : Request) : List Byte := s.requestParams r.port r.code r.form

/-- A command is a request that the port hands to its owner, with these parameters. -/
abbrev Handed (c : Instr) (s : State) (r : Request) (ps : List Byte) : Prop :=
  asRequest c = some r ∧ s.handsOn r ∧ s.given r = ps

/-- The outcome of a request that is answered at once: its submission taken, a change made, and the
reply written (R183). -/
def State.replied (s : State) (r : Request) (st : Status) (data : List Byte) (f : State → State) :
    Host.Outcome State Fault Refusal :=
  .next (State.answer r.port st data (f (s.taken r.port r.code r.form)))

end Sys2Proof.Machine
end

