-- ==== Sys2Proof/Certificates/Slice0/Obligations.lean ====
section
/-! DEFINITION. The statements for the provers. Each names what it states; `asRequest`, `handsOn`,
`given` and `replied` are those of Safety.lean: the request a command is, that the port hands it to
its owner, the parameters it carries, and the outcome of a request answered at once. A frame is
written as "t with these fields put back is s". -/

open Sys2Proof Sys2Proof.Machine

/-! ## The queue and the port -/

/-- A step takes the command at the front of the queue and runs it on the queue's rest; an empty queue idles
(the model's choice, log entry 3). -/
def Obligations.StepRunsFrontCommand : Prop :=
  (∀ (c : Instr) (rest : List Instr) (s : State), s.pending = c :: rest →
    step s = exec c { s with pending := rest }) ∧
  ∀ s : State, s.pending = [] → step s = .next s

/-- Every command is answered with a next state, and none touches the queue. A part without main supply
handles nothing but a start-up, the clock's tick and the loss of the backup-supplied domain (the model's
representation, log entry 11). -/
def Obligations.CommandsKeepQueueAndGoOn : Prop :=
  (
  ∀ (c : Instr) (s : State), ∃ t, exec c s = .next t ∧ t.pending = s.pending
  ) ∧
  (
  ∀ (c : Instr) (s : State), s.powered = false →
    (∀ cause pins phases run, c ≠ .startUp cause pins phases run) → c ≠ .siteClockTick →
    c ≠ .clockDomainSupplyLoss → exec c s = .next s
  )

/-- The port's own checks of a request, in the order of R184, with the answer of the first that fails; then
the owner's first checks: a parameter length that is not the form's is BAD_FORM, a position out of range
OUT_OF_RANGE, one without a record NO_ANCHOR; and a request whose reply is neither OK nor OK_CLAMPED
changes nothing but its port's mailbox. That a wrong parameter length of WITHDRAW, ABANDON, NEXT,
INSPECT, READ_EVENTS, CLEAR_EVENTS, SET_MASK and PART_STATUS is BAD_FORM is the model's choice (log
entry 36). -/
def Obligations.PortChecksAndRefusals : Prop :=
  (
  ∀ (c : Instr) (r : Request) (s : State), asRequest c = some r → s.powered = true →
    s.noneDue = true →
    (s.ports.get r.port).role ≠ .disabled → (s.ports.get r.port).mailState ≠ .busy → r.form ≠ [] →
    (s.ready = false → exec c s = s.replied r .notReady [] id) ∧
    (s.ready = true → 126 < ((s.taken r.port r.code r.form).ports.get r.port).formLength →
      exec c s = s.replied r .badForm [] id) ∧
    (s.ready = true → ((s.taken r.port r.code r.form).ports.get r.port).formLength ≤ 126 →
      r.access.allows (s.ports.get r.port).role = false → exec c s = s.replied r .role [] id) ∧
    (s.ready = true → ((s.taken r.port r.code r.form).ports.get r.port).formLength ≤ 126 →
      r.access.allows (s.ports.get r.port).role = true → r.held = true →
      s.journal.settingsInFlight = true → exec c s = s.replied r .notReady [] id)
  ) ∧
  (
  (∀ (c : Instr) (r : Request) (s : State), asRequest c = some r → s.handsOn r →
    (match r.code.toNat with
      | 0x01 => (s.given r).length ≠ 20
      | 0x04 => (s.given r).length ≠ 0 ∧ (s.given r).length ≠ 3
      | 0x02 | 0x03 | 0x06 | 0x10 | 0x20 => (s.given r).length ≠ 3
      | 0x18 | 0x39 => (s.given r).length ≠ 4
      | 0x30 => (s.given r).length ≠ 11
      | 0x31 | 0x3A | 0x40 | 0x51 | 0x52 => (s.given r).length ≠ 2
      | 0x38 => (s.given r).length ≠ 1 + 7 * byteAt (s.given r) 0
      | 0x41 => (s.given r).length ≠ 5
      | 0x48 => (s.given r).length % 3 ≠ 0 ∨ (s.given r).length = 0 ∨ 48 < (s.given r).length
      | 0x49 => (s.given r).length ≠ 2 + 7 * byteAt (s.given r) 1
      | 0x58 => (s.given r).length ≠ 1
      | _ => (s.given r).length ≠ 0) →
    exec c s = s.replied r .badForm [] id) ∧
  ∀ (c : Instr) (r : Request) (s : State), asRequest c = some r → s.handsOn r →
    (s.given r).length = 3 →
    (r.code = 0x02 ∨ r.code = 0x03 ∨ r.code = 0x06 ∨ r.code = 0x10 ∨ r.code = 0x20) →
    ((positionAt (s.given r) 0).valid = false → exec c s = s.replied r .outOfRange [] id) ∧
    ((positionAt (s.given r) 0).valid = true → s.register.find (positionAt (s.given r) 0) = none →
      exec c s = s.replied r .noAnchor [] id)
  ) ∧
  (
  ∀ (c : Instr) (r : Request) (s t : State), asRequest c = some r → s.noneDue = true →
    (s.ports.get r.port).mem.length = 256 → exec c s = .next t →
    (t.ports.get r.port).readByte 129 ≠ 0x00 → (t.ports.get r.port).readByte 129 ≠ 0x01 →
    { t with ports := s.ports } = s ∧
    (∀ q, q ≠ r.port → t.ports.get q = s.ports.get q) ∧
    { t.ports.get r.port with
      mem := (s.ports.get r.port).mem, mailState := (s.ports.get r.port).mailState } =
      s.ports.get r.port
  )

/-- A write transfer that is no submission stores its bytes from its offset on, below 80h only, and changes
nothing else; a port that is DISABLED or BUSY stores nothing; a transfer from offset 00h with at least
two bytes and a stop submits the request its first byte names; a code outside the catalogue is answered
UNKNOWN_REQUEST, after the checks for NOT_READY and BAD_FORM. A read transfer is acknowledged at the
port's own address, by an enabled port of a running part, for an offset not below 80h in BUSY; it gives
the mailbox's bytes from the offset on, and 00h past FFh. That a port that is DISABLED or BUSY stores
nothing is read from R181 and R182 (log entry 22), and what a read gets is a function, since it has no
row (log entry 34). -/
def Obligations.WriteTransfers : Prop :=
  (
  (∀ (p : PortNo) (off : Byte) (bytes : List Byte) (stop : Bool) (s : State), s.powered = true →
    s.noneDue = true →
    (s.ports.get p).role ≠ .disabled → (s.ports.get p).mailState ≠ .busy →
    (s.ports.get p).mem.length = 256 → (off ≠ 0 ∨ stop = false ∨ bytes.length < 2) →
    ∃ t, exec (.mailboxWrite p off bytes stop) s = .next t ∧
      (∀ i, i < 256 → (t.ports.get p).readByte i =
        if off.toNat ≤ i ∧ i < 128 ∧ i < off.toNat + bytes.length then bytes.getD (i - off.toNat) 0
        else (s.ports.get p).readByte i) ∧
      { t with ports := s.ports } = s ∧ (∀ q, q ≠ p → t.ports.get q = s.ports.get q) ∧
      { t.ports.get p with mem := (s.ports.get p).mem } = s.ports.get p) ∧
  ∀ (p : PortNo) (off : Byte) (bytes : List Byte) (stop : Bool) (s : State), s.powered = true →
    s.noneDue = true →
    ((s.ports.get p).role = .disabled ∨ (s.ports.get p).mailState = .busy) →
    exec (.mailboxWrite p off bytes stop) s = .next s
  ) ∧
  (
  (∀ (c : Instr) (r : Request) (s : State), asRequest c = some r → r.form ≠ [] →
    exec (.mailboxWrite r.port 0 (r.code :: r.form) true) s = exec c s ∧
    exec (.unknownRequestSubmission r.port r.code r.form) s = exec c s) ∧
  ∀ (p : PortNo) (code : Byte) (form : List Byte) (s : State), catalogue.contains code = false →
    s.powered = true → s.noneDue = true → (s.ports.get p).role ≠ .disabled →
      (s.ports.get p).mailState ≠ .busy →
    form ≠ [] →
    exec (.mailboxWrite p 0 (code :: form) true) s = exec (.unknownRequestSubmission p code form) s ∧
    exec (.unknownRequestSubmission p code form) s =
      s.replied ⟨p, code, form, .every, false⟩
        (if s.ready = false then .notReady
         else if 126 < ((s.taken p code form).ports.get p).formLength then .badForm
         else .unknownRequest) [] id
  ) ∧
  (
  ∀ (p : PortNo) (address off n : Nat) (s : State),
    (s.readTransfer p address off n = none ↔ s.powered = false ∨
      (s.ports.get p).role = .disabled ∨ address ≠ 0x38 + p.val ∨
      ((s.ports.get p).mailState = .busy ∧ off < 128)) ∧
    ∀ bs, s.readTransfer p address off n = some bs → bs.length = n ∧
      ∀ i, i < n → (s.ports.get p).mem.length = 256 →
        bs.getD i 0 = if off + i < 256 then (s.ports.get p).mem.getD (off + i) 0 else 0
  )

/-- What a submission and a reply do to the 256 bytes of a mailbox: the request area takes the code and the
bytes; in BUSY 80h is 2 and 81h..FFh are 00h; in DONE 80h is 3, then the status, the length and the
data, with 00h behind it; the bytes written are the parameters read. -/
def Obligations.MailboxHoldsRequestAndReply : Prop :=
  ∀ (x : Port) (code : Byte) (form : List Byte) (st : Status) (data : List Byte),
    x.mem.length = 256 → data.length ≤ 125 →
    let busy := (x.store 0 (code :: form)).accept
    let done := busy.answer st data
    busy.mailState = .busy ∧ done.mailState = .done ∧
    (∀ i, i < 128 → busy.readByte i = if i = 0 then code
      else if i ≤ form.length then form.getD (i - 1) 0 else x.readByte i) ∧
    busy.readByte 128 = 2 ∧ (∀ i, 129 ≤ i → busy.readByte i = 0) ∧
    (∀ i, i < 128 → done.readByte i = busy.readByte i) ∧ done.readByte 128 = 3 ∧
    done.readByte 129 = st.code ∧ (done.readByte 130).toNat = data.length ∧
    (∀ i, done.readByte (131 + i) = data.getD i 0) ∧
    ∀ ps : List Byte, ps.length ≤ 126 → form = BitVec.ofNat 8 ps.length :: ps → busy.params = ps

/-- READ_EVENTS reports the lowest pending enabled code, the pending set and the mask, and clears nothing;
CLEAR_EVENTS makes the flags of its set clear; SET_MASK replaces the mask; each acts on its own port
alone. An event raised becomes pending at every enabled port and at no disabled one, with nothing else
changed; an enabled port's attention line is low exactly while a pending flag is enabled, and so at
every enabled port at start-up. -/
def Obligations.EventRequests : Prop :=
  (
  (∀ (p : PortNo) (form : List Byte) (s : State) (r : Request),
    asRequest (.readEvents p form) = some r → s.handsOn r → s.given r = [] →
    ∃ k : Nat, exec (.readEvents p form) s =
        s.replied r .ok (enc8 k ++ bytes16 (s.ports.get p).flags ++ bytes16 (s.ports.get p).mask) id ∧
      (k = 0 → (s.ports.get p).flags &&& (s.ports.get p).mask = 0) ∧
      (k ≠ 0 → k ≤ 16 ∧ ((s.ports.get p).flags &&& (s.ports.get p).mask).getLsbD (k - 1) = true ∧
        ∀ j, j < k - 1 → ((s.ports.get p).flags &&& (s.ports.get p).mask).getLsbD j = false)) ∧
  (∀ (p : PortNo) (form : List Byte) (s : State) (r : Request),
    asRequest (.clearEvents p form) = some r → s.handsOn r → (s.given r).length = 2 →
    exec (.clearEvents p form) s =
      s.replied r .ok (bytes16 ((s.ports.get p).flags &&& ~~~setAt (s.given r) 0)) fun u =>
        u.modifyPort p fun q => { q with flags := q.flags &&& ~~~setAt (s.given r) 0 }) ∧
  ∀ (p : PortNo) (form : List Byte) (s : State) (r : Request),
    asRequest (.setMask p form) = some r → s.handsOn r → (s.given r).length = 2 →
    exec (.setMask p form) s =
      s.replied r .ok [] fun u => u.modifyPort p fun q => { q with mask := setAt (s.given r) 0 }
  ) ∧
  (
  (∀ (e : Event) (s : State) (q : PortNo),
    (∀ k, k < 16 → ((s.raise e).ports.get q).flags.getLsbD k =
      ((s.ports.get q).flags.getLsbD k ||
        (decide ((s.ports.get q).role ≠ .disabled) && decide (k + 1 = e.code)))) ∧
    { (s.raise e).ports.get q with flags := (s.ports.get q).flags } = s.ports.get q ∧
    { s.raise e with ports := s.ports } = s) ∧
  (∀ x : Port, x.attentionLow = true ↔ x.role ≠ .disabled ∧
    ∃ k, k < 16 ∧ x.flags.getLsbD k = true ∧ x.mask.getLsbD k = true) ∧
  ∀ (role : Role) (unset : Bool), role ≠ .disabled →
    (Port.atStartUp role unset).attentionLow = true
  )

/-- PART_STATUS answers OK with the bytes of its section, whose length and fields are those of R192, each
field at its offset, and a section above 6 with OUT_OF_RANGE; an anchor record in a reply is 78 bytes
with its parts at the offsets of R193; a certificate record is 104 + 6 c + 12 n bytes (R176) with its
fields at the offsets of R194. The free values of figures that do not fit, the flags' 1 and 2, the
engine codes, the order of the stress marks, and that a new drum or ram scale shows at once in section 2
are the model's (log entries 13, 16, 32, 40, 44). -/
def Obligations.RepliesHaveTheirLayouts : Prop :=
  (
  (∀ (p : PortNo) (form : List Byte) (s : State) (r : Request),
    asRequest (.partStatus p form) = some r → s.handsOn r → (s.given r).length = 1 →
    (∀ data, statusSection (s.taken p 0x58 form) (byteAt (s.given r) 0) = some data →
      exec (.partStatus p form) s = s.replied r .ok data id) ∧
    (6 < byteAt (s.given r) 0 → exec (.partStatus p form) s = s.replied r .outOfRange [] id)) ∧
  (∀ s : State, s.panels.length = 32 →
    (statusSection s 0).map List.length = some 59 ∧ (statusSection s 1).map List.length = some 30 ∧
    (statusSection s 2).map List.length = some 50 ∧ (statusSection s 3).map List.length = some 17 ∧
    (statusSection s 4).map List.length = some 107 ∧ (statusSection s 5).map List.length = some 102 ∧
    (statusSection s 6).map List.length = some 25) ∧
  (∀ (s : State) (bs : List Byte), statusSection s 0 = some bs → s.panels.length = 32 →
    (∀ x ∈ [(0, enc8 (startCauseCode s.startCause)), (1, encFlag s.clock.running),
      (2, encTime s.clock.time), (8, enc8 s.marks.length), (9, enc8 s.journal.state.code),
      (10, enc16 s.journal.count), (12, enc32 s.journal.appendPoint), (16, enc32 s.journal.room),
      (20, enc8 ((s.staging.map fun y => y.holder.val + 1).getD 0)),
      (21, enc8 s.settings.panelCount), (54, encFlag s.supply.latched),
      (55, encFlag (!s.supply.lineAsserted)), (56, enc8 s.winch.state.code),
      (57, enc8 s.grout.state.code), (58, enc8 s.stress.state.code)], holdsAt bs x.1 x.2) ∧
    ∀ (i : Nat) (y : Panel), s.panels[i]? = some y →
      holdsAt bs (22 + i) (enc8 (if i < s.settings.panelCount then y.state.code else 0))) ∧
  (∀ (s : State) (bs : List Byte), statusSection s 1 = some bs →
    (∀ x ∈ [(0, enc8 s.settings.capacity), (1, enc8 (s.settings.capacity - s.supply.granted)),
      (2, encFlow s.supply.winch), (4, encFlow s.supply.grout), (6, encFlow s.supply.stress),
      (8, enc8 s.supply.queue.length), (12, encOutput s.outputs.winch),
      (16, encOutput s.outputs.pump), (20, encOutput s.outputs.jackAdvance),
      (24, encOutput s.outputs.jackRelease), (28, enc16 s.settings.ditherHz)],
      holdsAt bs x.1 x.2) ∧
    ∀ i, i < 3 → holdsAt bs (9 + i)
      (enc8 ((s.supply.queue[i]?.map fun q => engineCode q.engine).getD 0))) ∧
  (∀ (s : State) (bs : List Byte), statusSection s 2 = some bs →
    ∀ x ∈ [(0, encSample s.meas.jack ++ enc16 ((s.meas.jack.map Sample.load).getD 0)),
      (7, encSample s.meas.grout), (12, encSample s.meas.tension), (17, bytes32 s.meas.drum.count),
      (21, encS32 s.paidLength), (25, bytes32 s.meas.ram.count), (29, encS32 s.displacement),
      (33, encS32 s.travel), (37, encFlag s.meas.ramDatum.isSome), (38, enc8 s.meas.drum.faults),
      (39, enc8 s.meas.ram.faults), (40, encFlag s.meas.compare.isSome),
      (41, enc32 s.meas.accepted), (45, enc16 s.meas.bounce),
      (47, encFlag s.meas.lastInterval.isSome), (48, enc16 (s.meas.lastInterval.getD 0))],
      holdsAt bs x.1 x.2) ∧
  (∀ (s : State) (bs : List Byte), statusSection s 3 = some bs →
    ∀ x ∈ [(0, enc8 s.winch.state.code), (1, enc8 ((s.winch.reason.map StopReason.code).getD 0)),
      (2, encPos s.winch.anchor), (5, enc16 (s.winch.slowBoundary.getD 0)),
      (7, encS32 s.winch.paid), (11, enc16 s.winch.tension), (13, enc8 s.winch.jamCount),
      (14, encFlag s.winch.jamTiming), (15, enc16 s.outputs.winch.set)], holdsAt bs x.1 x.2) ∧
  (∀ (s : State) (bs : List Byte), statusSection s 4 = some bs →
    (∀ x ∈ [(0, enc8 s.grout.state.code), (1, enc8 ((s.grout.pause.map PauseReason.code).getD 0)),
      (2, encPos s.grout.anchor), (5, enc8 ((s.grout.mode.map GroutMode.code).getD 0)),
      (6, enc16 (s.grout.limit.getD 0)), (8, enc16 s.grout.injected), (10, enc16 s.grout.strokes),
      (12, enc16 s.grout.unattributed), (14, enc8 s.grout.batchIds.length),
      (15, encIds s.grout.batchIds), (27, enc8 s.grout.extra), (28, enc16 s.grout.peak),
      (30, enc16 ((s.grout.latest.map Prod.fst).getD 0)),
      (32, enc8 ((s.grout.latest.map fun y => if y.2 = true then 2 else 1).getD 0)),
      (33, enc16 s.outputs.pump.set),
      (35, encMark (s.marks.find? fun m => m.name == .coldJoint || m.name == .refusal)),
      (42, enc8 s.batches.length)], holdsAt bs x.1 x.2) ∧
    ∀ i, i < 4 → holdsAt bs (43 + 16 * i)
      ((s.batches[i]?.map encBatch).getD (List.replicate 16 0))) ∧
  (∀ (s : State) (bs : List Byte), statusSection s 5 = some bs →
    (∀ x ∈ [(0, enc8 s.stress.state.code), (1, encPos s.stress.anchor),
      (4, enc8 (s.stress.profileNo.getD 0)), (5, enc8 (s.stress.step.getD 0)),
      (6, enc16 (s.stress.targetAt (s.stress.step.getD 0))),
      (8, enc8 ((s.stress.present.map fun st => st.role.code).getD 0)),
      (9, encTime (s.stress.holdStart.getD 0)),
      (15, enc8 ((if s.stress.extended = true then 1 else 0) +
        (if s.stress.makingUp = true then 2 else 0) + (if s.stress.accepted = true then 4 else 0) +
        (if s.stress.tripWait = true then 8 else 0))),
      (16, enc8 ((s.stress.pendingEnd.map TestCode.code).getD 0)),
      (17, enc16 ((s.stress.suspension.map Suspension.load).getD 0)),
      (19, enc8 ((s.stress.suspension.map fun y => y.resume.code).getD 0)),
      (20, enc16 (s.stress.pLock.getD 0)), (22, encJackView s.stress.latest),
      (35, enc16 s.stress.makeUps), (37, enc8 s.stress.suspensions),
      (38, enc8 s.stress.log.length),
      (39, (s.stress.log.getLast?.map encReading).getD (List.replicate 12 0)),
      (51, enc8 s.stress.creep.length), (76, enc16 s.outputs.jackAdvance.set),
      (78, enc16 s.outputs.jackRelease.set), (80, enc8 s.stressMarks.length)],
      holdsAt bs x.1 x.2) ∧
    (∀ i, i < 4 → holdsAt bs (52 + 6 * i)
      ((s.stress.creep[i]?.map encCreep).getD (List.replicate 6 0))) ∧
    ∀ i, i < 3 → holdsAt bs (81 + 7 * i) (encMark s.stressMarks[i]?)) ∧
  ∀ (s : State) (bs : List Byte), statusSection s 6 = some bs →
    ∀ x ∈ [(0, enc16u (s.stress.lock.target.getD 0)), (2, enc8 s.stress.lock.retries),
      (3, encS32 (s.stress.lock.sLock.getD 0)), (7, encS32 (s.stress.lock.sSeat.getD 0)),
      (11, encS32 (s.stress.lock.drawIn.getD 0)), (15, encS32 (s.stress.lock.point.getD 0)),
      (19, encFlag s.stress.lock.residual.isSome), (20, enc16 (s.stress.lock.residual.getD 0)),
      (22, encFlag s.stress.lock.notLifted), (23, enc8 s.stress.lock.hold.code),
      (24, enc8 ((s.stress.lock.result.map TestCode.code).getD 0))], holdsAt bs x.1 x.2
  ) ∧
  (
  (∀ a : Anchor, (encAnchor a).length = 78 ∧
    (encAnchor a).take 3 = encPos (some a.pos) ∧
    ((encAnchor a).drop 3).take 3 = enc8 a.state.code ++ encFlag a.interrupted ++
      enc8 ((if a.work.isSome then 1 else 0) + (if a.placement.isSome then 2 else 0) +
        (if a.grout.isSome then 4 else 0) + (if a.test.isSome then 8 else 0)) ∧
    ((encAnchor a).drop 6).take 17 = encDesign a.design ∧
    ((encAnchor a).drop 23).take 6 = encWork a.work ∧
    ((encAnchor a).drop 29).take 9 = encPlacement a.placement ∧
    ((encAnchor a).drop 38).take 27 = encGrout a.grout ∧
    (encAnchor a).drop 65 = encTest a.test) ∧
  ∀ (e : Stress) (a : Anchor) (result : TestCode) (count endTime c n : Nat) (bs : List Byte),
    bs = certificateRecord e a result count endTime → c = e.creep.length → n = e.log.length →
    bs.length = 104 + 6 * c + 12 * n ∧
    ∀ x ∈ [(0, enc8 1 ++ enc8 1 ++ enc16 (104 + 6 * c + 12 * n)),
      (4, encPos (some a.pos) ++ enc8 count ++ enc8 (e.profileNo.getD 0) ++ enc8 result.code),
      (10, enc32 (certificateBits e a result)),
      (14, enc32 (e.start.getD 0 / 1024) ++ enc32 endTime),
      (22, enc16 a.design.workLoad ++ enc16 a.design.tendonArea ++ enc16 a.design.modulus),
      (28, enc16 a.design.freeLength ++ enc16 a.design.bondLength ++ enc16 a.design.lockRatio),
      (34, encLengths e.lengths), (62, enc8 c), (63, e.creep.flatMap encCreep),
      (63 + 6 * c, encLockFigures e result),
      (77 + 6 * c, enc16 e.makeUps ++ enc16 e.suspensions), (81 + 6 * c, encGroutSummary a.grout),
      (103 + 6 * c, enc8 n), (104 + 6 * c, e.log.flatMap encReading)], holdsAt bs x.1 x.2
  )

/-! ## The anchor register -/

/-- An accepted DECLARE places a new DECLARED record with the design part given, no optional parts and the
interrupted flag false; WITHDRAW removes a DECLARED record; ABANDON makes a SHORT or FAILED anchor with
post count 2, or a GROUTED or FAILED one with test count 4, ABANDONED, and keeps its parts. -/
def Obligations.RecordsArePlacedAndEnded : Prop :=
  (
  ∀ (p : PortNo) (form : List Byte) (s : State) (r : Request) (ps : List Byte),
    Handed (.declare p form) s r ps → ps.length = 20 →
    1 ≤ byteAt ps 0 → byteAt ps 0 ≤ 32 → byteAt ps 0 ≤ s.settings.panelCount →
    1 ≤ byteAt ps 1 → byteAt ps 1 ≤ 8 → 1 ≤ byteAt ps 2 → byteAt ps 2 ≤ 4 →
    100 ≤ u16At ps 3 → u16At ps 3 ≤ 30000 → 100 ≤ u16At ps 5 → u16At ps 5 ≤ 6000 →
    1500 ≤ u16At ps 7 → u16At ps 7 ≤ 2200 → 3000 ≤ u16At ps 9 → u16At ps 9 ≤ 40000 →
    2000 ≤ u16At ps 11 → u16At ps 11 ≤ 15000 →
    u16At ps 9 + u16At ps 11 ≤ u16At ps 13 → u16At ps 13 ≤ 60000 →
    100 ≤ u16At ps 15 → u16At ps 15 ≤ 20000 → 1 ≤ byteAt ps 17 → byteAt ps 17 ≤ 4 →
    500 ≤ u16At ps 18 → u16At ps 18 ≤ 1100 →
    s.register.find (positionAt ps 0) = none → s.register.records.length < 512 →
    exec (.declare p form) s = s.replied r .ok [] fun u =>
      { u with
        register := { u.register with
          records := insertRecord
            { pos := ⟨byteAt ps 0, byteAt ps 1, byteAt ps 2⟩
              state := .declared
              design := ⟨u16At ps 3, u16At ps 5, u16At ps 7, u16At ps 9, u16At ps 11,
                u16At ps 13, u16At ps 15, byteAt ps 17, u16At ps 18⟩
              interrupted := false, work := none, placement := none, grout := none, test := none }
            u.register.records } }
  ) ∧
  (
  (∀ (p : PortNo) (form : List Byte) (s : State) (r : Request) (ps : List Byte) (a : Anchor),
    Handed (.withdraw p form) s r ps → ps.length = 3 → (positionAt ps 0).valid = true →
    s.register.find (positionAt ps 0) = some a →
    (a.state = .declared → exec (.withdraw p form) s = s.replied r .ok [] fun u =>
      { u with register := { u.register with
        records := u.register.records.filter fun b => b.pos != positionAt ps 0 } }) ∧
    (a.state ≠ .declared → exec (.withdraw p form) s = s.replied r .wrongState [] id)) ∧
  ∀ (p : PortNo) (form : List Byte) (s : State) (r : Request) (ps : List Byte) (a : Anchor),
    Handed (.abandon p form) s r ps → ps.length = 3 → (positionAt ps 0).valid = true →
    s.register.find (positionAt ps 0) = some a →
    if ((a.state = .short ∨ a.state = .failed) ∧ a.groutPart.postCount = 2) ∨
        ((a.state = .grouted ∨ a.state = .failed) ∧ a.testPart.count = 4) then
      exec (.abandon p form) s = s.replied r .ok [] fun u =>
        { u with register := { u.register with
          records := u.register.records.map fun b =>
            if b.pos = positionAt ps 0 then { b with state := .abandoned } else b } }
    else exec (.abandon p form) s = s.replied r .wrongState [] id
  )

/-- SEEK sets the port's cursor; NEXT returns the first record past it and moves it there, or answers
NO_RECORD and leaves it; INSPECT returns a record by position and moves no cursor. -/
def Obligations.RegisterWalk : Prop :=
  (∀ (p : PortNo) (form : List Byte) (s : State) (r : Request) (ps : List Byte),
    Handed (.seek p form) s r ps →
    (ps.length = 0 → exec (.seek p form) s =
      s.replied r .ok [] fun u => u.modifyPort p fun q => { q with cursor := none }) ∧
    (ps.length = 3 → (positionAt ps 0).valid = true → exec (.seek p form) s =
      s.replied r .ok [] fun u =>
        u.modifyPort p fun q => { q with cursor := some (positionAt ps 0) })) ∧
  (∀ (p : PortNo) (form : List Byte) (s : State) (r : Request),
    Handed (.nextRecord p form) s r [] →
    (∀ (before after : List Anchor) (a : Anchor), s.register.records = before ++ a :: after →
      (∀ b ∈ before, beyond (s.ports.get p).cursor b.pos = false) →
      beyond (s.ports.get p).cursor a.pos = true →
      exec (.nextRecord p form) s = s.replied r .ok (encAnchor a) fun u =>
        u.modifyPort p fun q => { q with cursor := some a.pos }) ∧
    ((∀ b ∈ s.register.records, beyond (s.ports.get p).cursor b.pos = false) →
      exec (.nextRecord p form) s = s.replied r .noRecord [] id)) ∧
  ∀ (p : PortNo) (form : List Byte) (s : State) (r : Request) (ps : List Byte),
    Handed (.inspect p form) s r ps → ps.length = 3 → (positionAt ps 0).valid = true →
    exec (.inspect p form) s =
      match s.register.find (positionAt ps 0) with
      | some a => s.replied r .ok (encAnchor a) id
      | none => s.replied r .noAnchor [] id

/-- An anchor is cured at its grout end time plus the cure period in hours of 3600 s; before that the
remaining hours are rounded up; without a grout end time they are the full cure period. -/
def Obligations.CureRule : Prop :=
  ∀ (a : Anchor) (period now : Nat),
    (∀ g t, a.grout = some g → g.endTime = some t →
      (a.hoursToCure period now = none ↔ t + 3600 * period ≤ now) ∧
      ∀ h, a.hoursToCure period now = some h →
        t + 3600 * period ≤ now + 3600 * h ∧ now + 3600 * h < t + 3600 * period + 3600) ∧
    ((a.grout.bind GroutPart.endTime) = none → a.hoursToCure period now = some period)

/-! ## The clock and the mark list -/

/-- A taken SET_TIME sets the seconds, clears the fraction, makes the clock RUNNING and writes the marker; a
taken SHIFT_TIME moves it by the rounded amount within its range; a tick advances a RUNNING clock by
1/1024 s, whatever the main supply; a clock that has reached its last value stops advancing until a
SET_TIME is taken; the loss of the domain's supply stops it and loses the marker. The flag of the
domain's supply, and that a SHIFT_TIME also stops the clock at its last value and starts no stopped one,
are the model's (log entries 12, 41). -/
def Obligations.ClockCommands : Prop :=
  (
  (∀ (p : PortNo) (form : List Byte) (s : State) (r : Request) (ps : List Byte),
    Handed (.setTime p form) s r ps → ps.length = 4 →
    (s.clock.running = false ∨ (s.winch.state = .idle ∧ s.grout.state = .idle ∧
      s.stress.state = .idle ∧ s.journal.state ≠ .appending)) →
    exec (.setTime p form) s =
      s.replied r .ok (encTime s.clock.time ++ encTime (u32At ps 0 * 1024)) fun u =>
        { u with clock := { u.clock with
          running := true, time := u32At ps 0 * 1024, marker := true, stopped := false } }) ∧
  ∀ (p : PortNo) (form : List Byte) (s : State) (r : Request) (ps : List Byte) (d : Int) (t : Nat),
    Handed (.shiftTime p form) s r ps → ps.length = 2 → (s16At ps 0).natAbs ≤ 999 →
    s.clock.running = true → d = roundDiv (s16At ps 0 * 1024) 1000 →
    (t : Int) = max 0 (min (Config.maxTime : Int) (s.clock.time + d)) →
    exec (.shiftTime p form) s =
      s.replied r (if (s.clock.time : Int) + d = t then .ok else .okClamped)
        (encTime t ++ encS16 (t - s.clock.time)) fun u =>
        { u with clock := { u.clock with
          time := t, stopped := s.clock.stopped || decide (4294967295 * 1024 + 1023 ≤ t) } }
  ) ∧
  (
  (∀ s : State, s.noneDue = true → s.clock.running = true → s.clock.supplied = true →
    s.clock.stopped = false →
    exec .siteClockTick s = .next { s with clock := { s.clock with
      time := min (s.clock.time + 1) (4294967295 * 1024 + 1023)
      stopped := decide (4294967295 * 1024 + 1023 ≤ s.clock.time + 1) } }) ∧
  (∀ s : State, s.noneDue = true →
    (s.clock.running = false ∨ s.clock.supplied = false ∨ s.clock.stopped = true) →
    exec .siteClockTick s = .next s) ∧
  (∀ s : State, s.noneDue = true → exec .clockDomainSupplyLoss s =
    .next { s with clock := { s.clock with marker := false, supplied := false } }) ∧
  ∀ s t : State, s.noneDue = true → exec .clockDomainSupplyLoss s = .next t →
    exec .siteClockTick t = .next t
  )

/-- An insertion replaces the mark of its name and places the new one behind every mark due no later; the
list keeps its order, and every other mark its place. -/
def Obligations.MarkInsertion : Prop :=
  ∀ (n : MarkName) (due : SiteTime) (s : State), marksSound s.marks = true →
    marksSound (s.insertMark n due).marks = true ∧
    (∃ before after, (s.insertMark n due).marks = before ++ ⟨due, n⟩ :: after ∧
      before ++ after = s.marks.filter (fun m => m.name != n) ∧
      (∀ m ∈ before, m.due ≤ due) ∧ ∀ m ∈ after, due < m.due) ∧
    { s.insertMark n due with marks := s.marks } = s

/-- Every mark that is due has expired before a command other than an expiry is handled: the heads expire
one after another, each by its owner's handling, until the head is not due; a due head also expires by
its own expiry command; with no mark due an expiry command changes nothing. That an expiry is a command
of its own, or comes just before the next other command, is the model's (log entry 5). -/
def Obligations.DueMarksExpireFirst : Prop :=
  (∀ (c : Instr) (s : State),
    (match c with
      | .stalenessExpiry _ | .batchExpiry _ | .jamExpiry | .coldJointExpiry | .refusalExpiry
      | .creepExpiry | .holdEndExpiry | .seatExpiry | .suspensionExpiry =>
        s.noneDue = true → exec c s = .next s
      | _ => exec c s = exec c s.expireDue)) ∧
  (∀ (s : State) (m : Mark) (rest : List Mark), s.powered = true → s.marks = m :: rest →
    m.due ≤ s.clock.time →
    exec (match m.name with
      | .staleness n => .stalenessExpiry n
      | .expiry id => .batchExpiry id
      | .jam => .jamExpiry
      | .coldJoint => .coldJointExpiry
      | .refusal => .refusalExpiry
      | .holdEnd _ => .holdEndExpiry
      | .seat _ => .seatExpiry
      | .creep _ _ => .creepExpiry
      | .suspension _ => .suspensionExpiry) s =
      .next (State.expired m.name { s with marks := rest }) ∧
    s.expireDue = (State.expired m.name { s with marks := rest }).expireDue) ∧
  (∀ s : State, s.powered = true → s.expireDue.noneDue = true ∧
    s.expireDue.clock = s.clock ∧ s.expireDue.powered = true) ∧
  (∀ s : State, s.marks = [] → s.expireDue = s) ∧
  ∀ (s : State) (m : Mark) (rest : List Mark), s.marks = m :: rest → s.clock.time < m.due →
    s.expireDue = s

/-! ## The winch engine -/

/-- An accepted START_WINCH: the start transition, the engine in WAIT_FLOW with its anchor, the drum
reference at the drum count, and the claim of the winch demand. An accepted START_GROUT: the start
transition, the volume limit, the figures at 0, and WAIT_BATCH with the queue empty, or a claim of the
grout demand in WAIT_FLOW. That START_GROUT leaves the latest pressure as it was is the model's (log
entry 31). -/
def Obligations.StartsTakeAnchors : Prop :=
  (
  ∀ (p : PortNo) (form : List Byte) (s : State) (r : Request) (ps : List Byte) (a : Anchor),
    Handed (.startWinch p form) s r ps → ps.length = 3 → (positionAt ps 0).valid = true →
    s.register.find (positionAt ps 0) = some a → a.state = .declared → s.winch.state = .idle →
    s.supply.latched = false → s.clock.running = true →
    exec (.startWinch p form) s = s.replied r .ok [] fun u =>
      { u with
        register := { u.register with
          records := u.register.records.map fun b =>
            if b.pos = positionAt ps 0 then
              { b with
                state := .placing, work := some ⟨.place, none, s.clock.time / 1024⟩
                interrupted := false }
            else b }
        winch :=
          { state := .waitFlow, reason := none, anchor := some (positionAt ps 0)
            slowBoundary := some (a.design.tendonLength - s.settings.slowZone)
            jamCount := 0, paid := 0, tension := 0, jamTiming := false }
        meas := { u.meas with drumRef := u.meas.drum.count }
        deliveries := u.deliveries ++ [.claim .winch s.settings.winchDemand] }
  ) ∧
  (
  ∀ (p : PortNo) (form : List Byte) (s : State) (r : Request) (ps : List Byte) (a : Anchor)
    (mode : GroutMode),
    Handed (.startGrout p form) s r ps → ps.length = 4 → (positionAt ps 0).valid = true →
    s.register.find (positionAt ps 0) = some a →
    ((byteAt ps 3 = 1 ∧ mode = .primary ∧ a.state = .placed) ∨
      (byteAt ps 3 = 2 ∧ mode = .post ∧ (a.state = .short ∨ a.state = .failed) ∧
        a.groutPart.postCount < 2)) →
    s.grout.state = .idle →
    (∀ b ∈ s.register.records, b.pos.panel = a.pos.panel → b.state ≠ .testing) →
    s.supply.latched = false → s.clock.running = true →
    exec (.startGrout p form) s = s.replied r .ok [] fun u =>
      { u with
        register := { u.register with
          records := u.register.records.map fun b =>
            if b.pos = positionAt ps 0 then
              { b with
                state := .grouting, interrupted := false
                work := if mode = .primary then some ⟨.groutPrimary, none, s.clock.time / 1024⟩
                  else some ⟨.groutPost, some a.state, s.clock.time / 1024⟩ }
            else b }
        grout :=
          { state := if s.batches = [] then .waitBatch else .waitFlow
            pause := none, anchor := some (positionAt ps 0), mode := some mode
            limit := some (if mode = .primary
              then (a.design.groutVolume * s.settings.overfill + 999) / 1000
              else (a.design.groutVolume * s.settings.postCap + 999) / 1000)
            injected := 0, strokes := 0, unattributed := 0, batchIds := [], extra := 0, peak := 0
            latest := s.grout.latest }
        deliveries := if s.batches = [] then u.deliveries
          else u.deliveries ++ [.claim .grout s.settings.groutDemand] }
  )

/-- CONTINUE_WINCH sends a stopped engine to WAIT_FLOW with a new claim, but not under a trip and not after
a third jam; ABORT_WINCH gives the anchor back as DECLARED with one more placing abort; CONTINUE_GROUT
sends a paused engine to wait again, but not under a trip; ABORT_GROUT ends the grouting INCOMPLETE in
every state but IDLE. That the winch figures are cleared with the anchor is the model's (log entry 19). -/
def Obligations.ContinueAndAbort : Prop :=
  (
  (∀ (p : PortNo) (form : List Byte) (s : State) (r : Request),
    Handed (.continueWinch p form) s r [] →
    exec (.continueWinch p form) s =
      if s.winch.state ≠ .stopped then s.replied r .wrongState [] id
      else if s.supply.latched = true then s.replied r .tripped [] id
      else if s.winch.reason = some .jam ∧ s.winch.jamCount = 3 then s.replied r .limit [] id
      else s.replied r .ok [] fun u =>
        { u with
          winch := { u.winch with state := .waitFlow, reason := none }
          deliveries := u.deliveries ++ [.claim .winch s.settings.winchDemand] }) ∧
  (∀ (p : PortNo) (form : List Byte) (s : State) (r : Request),
    Handed (.abortWinch p form) s r [] → s.winch.state = .idle →
    exec (.abortWinch p form) s = s.replied r .wrongState [] id) ∧
  ∀ (p : PortNo) (form : List Byte) (s : State) (r : Request) (pos : Position),
    Handed (.abortWinch p form) s r [] → s.winch.state ≠ .idle → s.winch.anchor = some pos →
    exec (.abortWinch p form) s = s.replied r .ok [] fun u =>
      { u with
        outputs := if s.supply.latched = true then u.outputs else
          { u.outputs with winch := { u.outputs.winch with set := 0, driven := 0 } }
        marks := if s.winch.jamTiming = true then u.marks.filter (fun m => m.name != .jam)
          else u.marks
        deliveries := u.deliveries ++ [.release .winch]
        register := { u.register with
          records := u.register.records.map fun b =>
            if b.pos = pos then
              if b.state = .placing then
                { b with
                  state := .declared, work := none
                  placement := some ⟨none, s.winch.jamCount,
                    satSucc 255 ((b.placement.map Placement.aborts).getD 0)⟩ }
              else b
            else b }
        winch :=
          { state := .idle, reason := none, anchor := none, slowBoundary := none
            jamCount := s.winch.jamCount, paid := 0, tension := 0, jamTiming := false } }
  ) ∧
  (
  (∀ (p : PortNo) (form : List Byte) (s : State) (r : Request),
    Handed (.continueGrout p form) s r [] →
    exec (.continueGrout p form) s =
      if s.grout.state ≠ .paused then s.replied r .wrongState [] id
      else if s.supply.latched = true then s.replied r .tripped [] id
      else s.replied r .ok [] fun u =>
        { u with
          grout := { u.grout with
            state := if s.batches = [] then .waitBatch else .waitFlow, pause := none }
          deliveries := if s.batches = [] then u.deliveries
            else u.deliveries ++ [.claim .grout s.settings.groutDemand] }) ∧
  ∀ (p : PortNo) (form : List Byte) (s : State) (r : Request),
    Handed (.abortGrout p form) s r [] →
    exec (.abortGrout p form) s =
      if s.grout.state = .idle then s.replied r .wrongState [] id
      else s.replied r .ok [] (State.endGrout .incomplete)
  )

/-- A TENSION_SAMPLE is kept with its tension, round(code * FS / 4095); the winch engine ignores it in IDLE,
keeps it in WAIT_FLOW and STOPPED, and in RUN and SLOW ends a placement that has reached its length, and
otherwise goes slow at the slow boundary and times a high tension. That the winch figures are cleared
with the anchor is the model's (log entry 19). -/
def Obligations.TensionSamples : Prop :=
  ∀ (code : BitVec 12) (s : State) (x : Sample) (paid : Int), s.powered = true → s.noneDue = true →
    x = ⟨code.toNat, roundDivNat (code.toNat * s.settings.tensionFs) 4095, 0, code.toNat == 4095,
      s.clock.time⟩ →
    paid = roundDiv ((s.meas.drum.count - s.meas.drumRef).toInt * 1000) s.settings.drumScale →
    (s.winch.state = .idle → exec (.tensionSample code) s =
      .next { s with meas := { s.meas with tension := some x } }) ∧
    ((s.winch.state = .waitFlow ∨ s.winch.state = .stopped) → exec (.tensionSample code) s =
      .next { s with
        meas := { s.meas with tension := some x }
        winch := { s.winch with paid := paid, tension := x.value } }) ∧
    ∀ (pos : Position) (a : Anchor), s.winch.anchor = some pos → s.register.find pos = some a →
      (s.winch.state = .run ∨ s.winch.state = .slow) →
      (((a.design.tendonLength : Int) ≤ paid) → exec (.tensionSample code) s =
        .next { s with
          meas := { s.meas with tension := some x }
          outputs := if s.supply.latched = true then s.outputs else
            { s.outputs with winch := { s.outputs.winch with set := 0, driven := 0 } }
          marks := if s.winch.jamTiming = true then s.marks.filter (fun m => m.name != .jam)
            else s.marks
          deliveries := s.deliveries ++ [.release .winch]
          register := { s.register with
            records := s.register.records.map fun b =>
              if b.pos = pos then
                if b.state = .placing then
                  { b with
                    state := .placed, work := none
                    placement := some ⟨some (paid, s.clock.time / 1024), s.winch.jamCount,
                      (b.placement.map Placement.aborts).getD 0⟩ }
                else b
              else b }
          winch :=
            { state := .idle, reason := none, anchor := none, slowBoundary := none
              jamCount := s.winch.jamCount, paid := 0, tension := 0, jamTiming := false }
          ports := s.ports.raise .winchEnd }) ∧
      (paid < (a.design.tendonLength : Int) →
        ∀ (slow high : Bool),
          slow = decide (s.winch.state = .run ∧ (s.winch.slowBoundary.getD 0 : Int) ≤ paid) →
          high = (decide (s.settings.jamTension ≤ x.value) || x.saturated) →
          exec (.tensionSample code) s =
            .next { s with
              meas := { s.meas with tension := some x }
              outputs := if slow = true ∧ s.supply.latched = false then
                s.outputs.write .winch (min s.settings.slowDuty 1000) else s.outputs
              winch := { s.winch with
                paid := paid, tension := x.value, jamTiming := high
                state := if slow = true then .slow else s.winch.state }
              marks := if high = true ∧ s.winch.jamTiming = false then
                  placeMark ⟨min (s.clock.time + roundDivNat (s.settings.jamTime * 1024) 1000)
                    Config.maxTime, .jam⟩ (s.marks.filter fun m => m.name != .jam)
                else if high = false ∧ s.winch.jamTiming = true then
                  s.marks.filter fun m => m.name != .jam
                else s.marks })

/-- Every entry of the winch engine to STOPPED: by the expiry of its JAM mark, with one more jam, by a trip
notice, and by a drum encoder fault; the reason of a stop does not change. The notice in flight, and the
expiry as a command of its own, are the model's (log entries 4, 5). -/
def Obligations.WinchStops : Prop :=
  (∀ (r : StopReason) (s : State), s.stopWinch r =
    { s with
      outputs := if s.supply.latched = true then s.outputs else
        { s.outputs with winch := { s.outputs.winch with set := 0, driven := 0 } }
      marks := if s.winch.jamTiming = true then s.marks.filter (fun m => m.name != .jam)
        else s.marks
      deliveries := s.deliveries ++ [.release .winch]
      winch := { s.winch with state := .stopped, reason := some r, jamTiming := false }
      ports := s.ports.raise .winchStopped }) ∧
  (∀ (s : State) (due : SiteTime) (rest : List Mark), s.powered = true →
    s.marks = ⟨due, .jam⟩ :: rest → due ≤ s.clock.time →
    (s.winch.state = .run ∨ s.winch.state = .slow) →
    exec .jamExpiry s = .next (State.stopWinch .jam
      { s with marks := rest, winch := { s.winch with jamCount := s.winch.jamCount + 1 } })) ∧
  (∀ (s : State) (before after : List Delivery), s.powered = true → s.noneDue = true →
    s.deliveries = before ++ .tripNotice .winch :: after → (∀ d ∈ before, d.toEngine .winch = false) →
    exec (.tripNotice .winch) s = .next
      (if s.winch.state = .idle ∨ s.winch.state = .stopped then
        { s with deliveries := before ++ after }
      else State.stopWinch .trip { s with deliveries := before ++ after })) ∧
  ∀ (s : State) (pair : PhasePair), s.powered = true → s.noneDue = true →
    phaseMove s.meas.drum.pair pair = .fault →
    exec (.countStep .drum pair) s = .next
      (let t := State.raise .encoderFault { s with meas := { s.meas with
          drum := { s.meas.drum with
            pair := pair, faults := satSucc 255 s.meas.drum.faults } } }
       if s.winch.state = .idle ∨ s.winch.state = .stopped then t else t.stopWinch .encoder)

/-! ## The grout engine and the batch queue -/

/-- The end of a grouting: PUMP 0, its marks removed, its flow released, IDLE, and in the register the state
that R13 gives for the mode, the outcome and the volume. -/
def Obligations.GroutEnds : Prop :=
  ∀ (o : GroutOutcome) (s : State) (pos : Position) (mode : GroutMode),
    s.grout.anchor = some pos → s.grout.mode = some mode →
    s.endGrout o =
      { s with
        outputs := if s.supply.latched = true then s.outputs else
          { s.outputs with pump := { s.outputs.pump with set := 0, driven := 0 } }
        marks := (s.marks.filter fun m => m.name != .coldJoint).filter fun m => m.name != .refusal
        deliveries := s.deliveries ++ [.release .grout]
        register := { s.register with
          records := s.register.records.map fun b =>
            if b.pos = pos ∧ b.state = .grouting then
              let ok : Bool := (mode = .primary ∧ o = .complete) ∨
                (mode = .primary ∧ o = .refusal ∧
                  b.design.groutVolume * 800 ≤ s.grout.injected * 1000) ∨
                (mode = .post ∧ o = .refusal)
              { b with
                state := if ok then .grouted else if mode = .primary then .short
                  else (b.work.bind Work.ret).getD .grouting
                work := none
                grout := some
                  { endTime := some (s.clock.time / 1024)
                    primary := if mode = .primary then some s.grout.injected
                      else b.grout.bind GroutPart.primary
                    post := if mode = .post then some s.grout.injected
                      else b.grout.bind GroutPart.post
                    outcome := o
                    postCount := (b.grout.map GroutPart.postCount).getD 0 +
                      (if mode = .post then 1 else 0)
                    batchIds := if ok then s.grout.batchIds
                      else (b.grout.map GroutPart.batchIds).getD []
                    extra := if ok then s.grout.extra else (b.grout.map GroutPart.extra).getD 0
                    unattributed := if ok then s.grout.unattributed
                      else (b.grout.map GroutPart.unattributed).getD 0 } }
            else b }
        grout := { s.grout with state := .idle, pause := none, anchor := none }
        ports := s.ports.raise .groutEnd }

/-- Every entry to PAUSED: PUMP 0, the REFUSAL mark removed, the flow released, GROUT_PAUSED raised; a break
is timed once a stroke has been counted: the COLD_JOINT mark is inserted when it is not held; its expiry
in a break ends the grouting INCOMPLETE, and the REFUSAL mark's in REFUSAL_HOLD ends it REFUSAL. The
notice in flight, and the expiry as a command of its own, are the model's (log entries 4, 5). -/
def Obligations.GroutPausesAndExpiries : Prop :=
  (
  (∀ (r : PauseReason) (s : State), s.pauseGrout r =
    { s with
      outputs := if s.supply.latched = true then s.outputs else
        { s.outputs with pump := { s.outputs.pump with set := 0, driven := 0 } }
      marks :=
        let kept := s.marks.filter fun m => m.name != .refusal
        if 0 < s.grout.strokes ∧ ∀ m ∈ s.marks, m.name ≠ .coldJoint then
          placeMark ⟨min (s.clock.time + s.settings.coldJointLimit * 1024) Config.maxTime,
            .coldJoint⟩ kept
        else kept
      deliveries := s.deliveries ++ [.release .grout]
      grout := { s.grout with state := .paused, pause := some r }
      ports := s.ports.raise .groutPaused }) ∧
  ∀ (s : State) (before after : List Delivery), s.powered = true → s.noneDue = true →
    s.deliveries = before ++ .tripNotice .grout :: after → (∀ d ∈ before, d.toEngine .grout = false) →
    exec (.tripNotice .grout) s = .next
      (if s.grout.state = .idle then { s with deliveries := before ++ after }
      else State.pauseGrout .trip { s with deliveries := before ++ after })
  ) ∧
  (
  (∀ s : State, s.timeBreak =
    if (s.grout.state = .waitBatch ∨ s.grout.state = .waitFlow ∨ s.grout.state = .paused) ∧
        0 < s.grout.strokes ∧ ∀ m ∈ s.marks, m.name ≠ .coldJoint then
      { s with
        marks := placeMark
          ⟨min (s.clock.time + s.settings.coldJointLimit * 1024) Config.maxTime, .coldJoint⟩
          s.marks }
    else s) ∧
  (∀ (s : State) (due : SiteTime) (rest : List Mark), s.powered = true →
    s.marks = ⟨due, .coldJoint⟩ :: rest → due ≤ s.clock.time →
    exec .coldJointExpiry s = .next
      (if s.grout.state = .waitBatch ∨ s.grout.state = .waitFlow ∨ s.grout.state = .paused then
        State.endGrout .incomplete { s with marks := rest }
      else { s with marks := rest })) ∧
  ∀ (s : State) (due : SiteTime) (rest : List Mark), s.powered = true →
    s.marks = ⟨due, .refusal⟩ :: rest → due ≤ s.clock.time →
    exec .refusalExpiry s = .next
      (if s.grout.state = .refusalHold then State.endGrout .refusal { s with marks := rest }
      else { s with marks := rest })
  )

/-- A GROUT_SAMPLE is kept with its pressure; the grout engine ignores it in IDLE, keeps it in a break, and
in PUMPING and REFUSAL_HOLD pauses for overpressure, holds at the refusal pressure, and pumps on again
when the pressure falls below nine tenths of it. That an IDLE engine keeps its latest pressure as it was
is the model's (log entry 31). -/
def Obligations.GroutSamples : Prop :=
  ∀ (code : BitVec 12) (s : State) (x : Sample), s.powered = true → s.noneDue = true →
    x = ⟨code.toNat, roundDivNat (code.toNat * s.settings.groutFs) 4095, 0, code.toNat == 4095,
      s.clock.time⟩ →
    (s.grout.state = .idle → exec (.groutSample code) s =
      .next { s with meas := { s.meas with grout := some x } }) ∧
    ((s.grout.state = .waitBatch ∨ s.grout.state = .waitFlow ∨ s.grout.state = .paused) →
      exec (.groutSample code) s = .next
        { s with
          meas := { s.meas with grout := some x }
          grout := { s.grout with latest := some (x.value, x.saturated) } }) ∧
    ((s.grout.state = .pumping ∨ s.grout.state = .refusalHold) →
      ∀ u : State, u =
        { s with
          meas := { s.meas with grout := some x }
          grout := { s.grout with
            latest := some (x.value, x.saturated), peak := max s.grout.peak x.value } } →
      exec (.groutSample code) s = .next
        (if s.settings.groutMax < x.value ∨ x.saturated = true then
          (u.pauseGrout .overpressure).raise .channelTrip
        else if s.settings.refusalPressure ≤ x.value then
          if s.grout.state = .refusalHold then u
          else
            { u with
              outputs := if s.supply.latched = true then u.outputs else
                { u.outputs with pump := { u.outputs.pump with set := 0, driven := 0 } }
              marks := placeMark
                ⟨min (s.clock.time + s.settings.refusalPeriod * 1024) Config.maxTime, .refusal⟩
                (u.marks.filter fun m => m.name != .refusal)
              grout := { u.grout with state := .refusalHold } }
        else if x.value * 1000 < s.settings.refusalPressure * 900 ∧
            s.grout.state = .refusalHold then
          if s.batches = [] then
            State.pauseGrout .batch { u with marks := u.marks.filter fun m => m.name != .refusal }
          else
            { u with
              outputs := if s.supply.latched = true then u.outputs
                else u.outputs.write .pump (min s.settings.pumpDuty 1000)
              marks := (u.marks.filter fun m => m.name != .refusal).filter
                fun m => m.name != .coldJoint
              grout := { u.grout with state := .pumping } }
        else u))

/-- A STROKE_EDGE is accepted when it is the first or when the timer has reached the minimum interval; it
restarts the timer, is counted, and is handed on with its time and interval; any other edge is bounce. A
STROKE_TIMER_TICK counts a running timer up to 65535. -/
def Obligations.StrokeEdgesAndTimer : Prop :=
  (∀ s : State, s.powered = true → s.noneDue = true →
    (s.meas.strokeTimer = none ∨ ∃ t, s.meas.strokeTimer = some t ∧ s.settings.minStroke ≤ t) →
    exec .strokeEdge s = .next
      { s with
        meas := { s.meas with
          strokeTimer := some 0, lastInterval := s.meas.strokeTimer
          accepted := (s.meas.accepted + 1) % 4294967296 }
        deliveries := s.deliveries ++ [.stroke s.clock.time s.meas.strokeTimer] }) ∧
  (∀ (s : State) (t : Nat), s.powered = true → s.noneDue = true → s.meas.strokeTimer = some t →
    t < s.settings.minStroke → exec .strokeEdge s = .next
      { s with meas := { s.meas with
        bounce := if s.meas.bounce < 65535 then s.meas.bounce + 1 else s.meas.bounce } }) ∧
  (∀ (s : State) (t : Nat), s.powered = true → s.noneDue = true → s.meas.strokeTimer = some t →
    exec .strokeTimerTick s = .next
      { s with meas := { s.meas with
        strokeTimer := some (if t < 65535 then t + 1 else t) } }) ∧
  ∀ s : State, s.powered = true → s.noneDue = true → s.meas.strokeTimer = none →
    exec .strokeTimerTick s = .next s

/-- A volume charged to the queue is taken from its head on: nothing of it is lost, only what the queue
could not give is left, and the batches used up leave from the front. A STROKE that reaches a grout
engine not IDLE counts one stroke of the stroke volume, charges the queue, keeps the batches that gave,
and then ends at the limit, pauses or waits when the queue is empty, or times a break. The count of
extra batches follows R120 to the letter (log entry 18); the stroke in flight is the model's (log entry
4). -/
def Obligations.StrokesAreCounted : Prop :=
  (
  ∀ (v : Nat) (queue : List Batch),
    let c := chargeQueue v queue
    (queue.map Batch.remaining).sum + c.left = (c.queue.map Batch.remaining).sum + v ∧
    (0 < c.left → c.queue = []) ∧
    queue.map Batch.id = c.used ++ c.queue.map Batch.id ∧
    (c.gave = c.used ∨ ∃ b rest, c.queue = b :: rest ∧ c.gave = c.used ++ [b.id]) ∧
    c.queue.drop 1 = queue.drop (c.used.length + 1)
  ) ∧
  (
  ∀ (s : State) (before after : List Delivery) (time : SiteTime) (interval : Option Nat),
    s.powered = true → s.noneDue = true → s.deliveries = before ++ .stroke time interval :: after →
    (∀ d ∈ before, ∀ t i, d ≠ .stroke t i) →
    (s.grout.state = .idle → exec .stroke s = .next { s with deliveries := before ++ after }) ∧
    (s.grout.state ≠ .idle → ∀ (c : Charge) (ids : List Nat × Nat) (u : State),
      c = chargeQueue s.settings.strokeVolume s.batches →
      ids = c.gave.foldl noteBatch (s.grout.batchIds, s.grout.extra) →
      u = { s with
        deliveries := before ++ after
        batches := c.queue
        marks := s.marks.filter fun m => c.used.all fun id => m.name != .expiry id
        grout := { s.grout with
          strokes := s.grout.strokes + 1
          injected := s.grout.injected + s.settings.strokeVolume
          batchIds := ids.1, extra := ids.2
          unattributed := s.grout.unattributed + c.left }
        ports := if c.used = [] then s.ports else s.ports.raise .batchGone } →
      exec .stroke s = .next
        (if s.grout.limit.getD 0 ≤ u.grout.injected then
          u.endGrout (if s.grout.mode = some .primary then .complete else .incomplete)
        else if s.grout.state = .pumping ∧ c.queue = [] then u.pauseGrout .batch
        else if s.grout.state = .waitFlow ∧ c.queue = [] then
          State.timeBreak
            { u with
              grout := { u.grout with state := .waitBatch }
              deliveries := u.deliveries ++ [.release .grout] }
        else u.timeBreak))
  )

/-- An accepted POST_BATCH puts the batch at the tail with its EXPIRY mark, and an engine in WAIT_BATCH
claims flow; the reply gives the expiry time and the number of batches. A batch leaves by DISCARD_BATCH
or at the expiry of its mark: taken out wherever it stands, its mark removed, BATCH_GONE raised; an
engine left with an empty queue pauses, or gives up its claim. The expiry as a command of its own is the
model's (log entry 5). -/
def Obligations.BatchesComeAndGo : Prop :=
  (
  ∀ (p : PortNo) (form : List Byte) (s : State) (r : Request) (ps : List Byte) (b : Batch),
    Handed (.postBatch p form) s r ps → ps.length = 11 →
    b = ⟨u16At ps 0, u32At ps 2, u16At ps 6, u16At ps 8, byteAt ps 10,
      u32At ps 2 + 60 * byteAt ps 10, u16At ps 8⟩ →
    1 ≤ b.id → 1 ≤ b.volume → b.volume ≤ 20000 → 30 ≤ b.life → b.life ≤ 240 →
    s.clock.running = true → s.batches.length < 4 → (∀ x ∈ s.batches, x.id ≠ b.id) →
    380 ≤ b.ratio → b.ratio ≤ 550 → b.mixTime ≤ s.clock.time / 1024 + 60 →
    s.clock.time / 1024 < b.expiry → (∀ x, s.batches.getLast? = some x → x.mixTime ≤ b.mixTime) →
    exec (.postBatch p form) s =
      s.replied r .ok (enc32 b.expiry ++ enc8 (s.batches.length + 1)) fun u =>
        { u with
          batches := u.batches ++ [b]
          marks := placeMark ⟨min (b.expiry * 1024) Config.maxTime, .expiry b.id⟩
            (u.marks.filter fun m => m.name != .expiry b.id)
          grout := { u.grout with
            state := if s.grout.state = .waitBatch then .waitFlow else s.grout.state }
          deliveries := if s.grout.state = .waitBatch
            then u.deliveries ++ [.claim .grout s.settings.groutDemand] else u.deliveries }
  ) ∧
  (
  (∀ (id : Nat) (s u : State),
    u = { s with
      batches := s.batches.filter fun x => x.id != id
      marks := s.marks.filter fun m => m.name != .expiry id
      ports := s.ports.raise .batchGone } →
    s.removeBatch id =
      if u.batches = [] ∧ s.grout.state = .pumping then u.pauseGrout .batch
      else if u.batches = [] ∧ s.grout.state = .waitFlow then
        State.timeBreak
          { u with
            grout := { u.grout with state := .waitBatch }
            deliveries := u.deliveries ++ [.release .grout] }
      else u) ∧
  (∀ (p : PortNo) (form : List Byte) (s : State) (r : Request) (ps : List Byte),
    Handed (.discardBatch p form) s r ps → ps.length = 2 →
    exec (.discardBatch p form) s =
      match s.batches.find? fun x => x.id == u16At ps 0 with
      | some x => s.replied r .ok (enc16 x.remaining) (State.removeBatch (u16At ps 0))
      | none => s.replied r .noRecord [] id) ∧
  ∀ (id : Nat) (s : State) (due : SiteTime) (rest : List Mark), s.powered = true →
    s.marks = ⟨due, .expiry id⟩ :: rest → due ≤ s.clock.time →
    exec (.batchExpiry id) s = .next (State.removeBatch id { s with marks := rest })
  )

/-! ## The hydraulic supply and the outputs -/

/-- A claim joins the queue behind every claim of equal or higher priority; a grant pass grants from the
head while the head fits the free flow, and stops at the first that does not. A CLAIM that reaches the
arbiter: refused as TRIPPED, which its engine handles as a trip; refused as DUPLICATE, with no effect;
or queued, with a grant pass. A RELEASE gives a grant back or withdraws a queued claim, with a grant
pass; with status NONE it changes nothing. The claims, releases and grants in flight are the model's
(log entry 4). -/
def Obligations.ArbiterDecides : Prop :=
  (
  (∀ (c : Claim) (q : List Claim),
    q.Pairwise (fun x y => priority y.engine ≤ priority x.engine) →
    ∃ before after, queueClaim c q = before ++ c :: after ∧ before ++ after = q ∧
      (∀ x ∈ before, priority c.engine ≤ priority x.engine) ∧
      ∀ x ∈ after, priority x.engine < priority c.engine) ∧
  ∀ (s t : State), t = s.grantPass →
    ∃ granted stay, granted ++ stay = s.supply.queue ∧
      (granted.map Claim.demand).sum ≤ s.settings.capacity - s.supply.granted ∧
      (∀ c rest, stay = c :: rest →
        s.settings.capacity - s.supply.granted < (granted.map Claim.demand).sum + c.demand) ∧
      t = { s with
        supply := granted.foldl (fun sup c => sup.put c.engine ⟨.granted, c.demand⟩)
          { s.supply with queue := stay }
        deliveries := s.deliveries ++ granted.map fun c => .grant c.engine }
  ) ∧
  (
  ∀ (e : Engine) (demand : Nat) (s u : State) (before after : List Delivery), s.powered = true →
    s.noneDue = true →
    s.deliveries = before ++ .claim e demand :: after → (∀ d ∈ before, d.fromEngine e = false) →
    u = { s with deliveries := before ++ after } →
    exec (.claim e) s = .next
      (if s.supply.latched = true then
        match e with
        | .winch => u.winchTrip
        | .grout => u.groutTrip
        | .stress => u.stressTrip
      else if (s.supply.flowOf e).status ≠ .none then u
      else
        State.grantPass
          { u with
            supply := { s.supply.put e ⟨.queued, 0⟩ with
              queue := queueClaim ⟨e, demand⟩ s.supply.queue } })
  ) ∧
  (
  ∀ (e : Engine) (s u : State) (before after : List Delivery), s.powered = true → s.noneDue = true →
    s.deliveries = before ++ .release e :: after → (∀ d ∈ before, d.fromEngine e = false) →
    u = { s with deliveries := before ++ after } →
    ((s.supply.flowOf e).status = .none → exec (.release e) s = .next u) ∧
    ((s.supply.flowOf e).status = .granted → exec (.release e) s =
      .next (State.grantPass { u with supply := s.supply.put e ⟨.none, 0⟩ })) ∧
    ((s.supply.flowOf e).status = .queued → exec (.release e) s =
      .next (State.grantPass
        { u with
          supply := { s.supply.put e ⟨.none, 0⟩ with
            queue := s.supply.queue.filter fun c => c.engine != e } }))
  )

/-- A GRANT that reaches its engine in WAIT_FLOW: the winch runs, or goes slow from the slow boundary on;
the grout engine pumps; the stress engine ramps to step 1, or is suspended by a wall that is not quiet,
and in a lock-off that waits for flow resumes its phase. In any other state it is not acted on. The
grant in flight, and that a step's hold start and extended flag stay until the next hold, are the
model's (log entries 4, 39). -/
def Obligations.GrantsReachEngines : Prop :=
  ∀ (e : Engine) (s u : State) (before after : List Delivery), s.powered = true → s.noneDue = true →
    (∀ d ∈ before, d.isGrant = false ∧ d.toEngine e = false) →
    (∀ f, f ≠ e → s.deliveries = before ++ .grant f :: after → exec (.grant e) s = .next s) ∧
    (s.deliveries = before ++ .grant e :: after →
    u = { s with deliveries := before ++ after } →
    exec (.grant e) s = .next
      (match e with
      | .winch =>
        if s.winch.state ≠ .waitFlow then u
        else if s.winch.paid < (s.winch.slowBoundary.getD 0 : Int) then
          { u with
            winch := { u.winch with state := .run }
            outputs := if s.supply.latched = true then u.outputs
              else u.outputs.write .winch (min s.settings.runDuty 1000) }
        else
          { u with
            winch := { u.winch with state := .slow }
            outputs := if s.supply.latched = true then u.outputs
              else u.outputs.write .winch (min s.settings.slowDuty 1000) }
      | .grout =>
        if s.grout.state ≠ .waitFlow then u
        else
          { u with
            grout := { u.grout with state := .pumping }
            marks := u.marks.filter fun m => m.name != .coldJoint
            outputs := if s.supply.latched = true then u.outputs
              else u.outputs.write .pump (min s.settings.pumpDuty 1000) }
      | .stress =>
        if s.stress.state = .waitFlow then
          if s.testQuiet = true then
            { u with stress := { u.stress with
              state := .stepRamp, step := some 1, dir := .undecided } }
          else u.suspend .ramp
        else if s.stress.lock.hold = .flow then
          match s.stress.state with
          | .lockRamp =>
            { u with stress := { u.stress with
              dir := .undecided, lock := { u.stress.lock with hold := .none } } }
          | .seating =>
            { u with
              stress := { u.stress with
                lock := { u.stress.lock with hold := .none, seatInserted := false } }
              outputs := if s.supply.latched = true then u.outputs
                else u.outputs.write .jackRelease (min s.settings.rampDuty 1000) }
          | .liftCheck =>
            { u with
              stress := { u.stress with lock := { u.stress.lock with hold := .none } }
              meas := { u.meas with compare := some (s.stress.lock.point.getD 0) }
              outputs := if s.supply.latched = true then u.outputs
                else u.outputs.write .jackAdvance (min s.settings.approachDuty 1000) }
          | _ => u
        else u))

/-- An assertion of the trip line with the latch CLEAR latches the trip in one change; with the latch
LATCHED it changes the level alone; a release of the line leaves the latch; CLEAR_TRIP is refused while
the line is ASSERTED, clears a latched trip and tells every engine, and leaves a clear latch. The
notices in flight are the model's (log entry 4). -/
def Obligations.TripLineAndLatch : Prop :=
  (∀ s : State, s.powered = true → s.noneDue = true → s.supply.latched = false →
    exec .tripLineAssertion s = .next
      { s with
        supply :=
          { winch := ⟨.none, 0⟩, grout := ⟨.none, 0⟩, stress := ⟨.none, 0⟩, queue := []
            latched := true, lineAsserted := true }
        outputs :=
          { winch := { s.outputs.winch with set := 0, driven := 0 }
            pump := { s.outputs.pump with set := 0, driven := 0 }
            jackAdvance := { s.outputs.jackAdvance with set := 0, driven := 0 }
            jackRelease := { s.outputs.jackRelease with set := 0, driven := 0 } }
        deliveries := s.deliveries ++
          [.tripNotice .winch, .tripNotice .grout, .tripNotice .stress]
        ports := s.ports.raise .packTrip }) ∧
  (∀ s : State, s.powered = true → s.noneDue = true → s.supply.latched = true →
    exec .tripLineAssertion s = .next { s with supply := { s.supply with lineAsserted := true } }) ∧
  (∀ s : State, s.powered = true → s.noneDue = true →
    exec .tripLineRelease s = .next { s with supply := { s.supply with lineAsserted := false } }) ∧
  ∀ (p : PortNo) (form : List Byte) (s : State) (r : Request), Handed (.clearTrip p form) s r [] →
    exec (.clearTrip p form) s =
      if s.supply.lineAsserted = true then s.replied r .lineActive [] id
      else if s.supply.latched = true then
        s.replied r .ok [] fun u =>
          { u with
            supply := { u.supply with latched := false }
            deliveries := u.deliveries ++
              [.clearNotice .winch, .clearNotice .grout, .clearNotice .stress] }
      else s.replied r .ok [] id

/-- A CLEAR_NOTICE is taken by every engine; the stress engine alone makes anything of it: it takes up its
release of the jack, or claims flow again for a frozen lock-off. A TRIP_NOTICE at the stress engine: a
test in WAIT_FLOW ends without being counted, one before acceptance unloads once the trip is cleared, a
lock-off phase freezes, and a release of the jack waits. The notices in flight, and that the ramp
direction stays in a frozen lock-off, are the model's (log entries 4, 43). -/
def Obligations.NoticesReachEngines : Prop :=
  (
  ∀ (e : Engine) (s u : State) (before after : List Delivery), s.powered = true → s.noneDue = true →
    s.deliveries = before ++ .clearNotice e :: after → (∀ d ∈ before, d.toEngine e = false) →
    u = { s with deliveries := before ++ after } →
    exec (.clearNotice e) s = .next
      (if e = .stress ∧ s.stress.tripWait = true then
        match s.stress.state with
        | .unloading | .finalRelease =>
          { u with
            stress := { u.stress with tripWait := false }
            outputs := if s.supply.latched = true then u.outputs
              else u.outputs.write .jackRelease (min s.settings.rampDuty 1000) }
        | .lockRamp | .seating | .liftCheck =>
          { u with
            stress := { u.stress with
              tripWait := false, lock := { u.stress.lock with hold := .flow } }
            deliveries := u.deliveries ++ [.claim .stress s.settings.stressDemand] }
        | _ => { u with stress := { u.stress with tripWait := false } }
      else u)
  ) ∧
  (
  ∀ (s u : State) (before after : List Delivery), s.powered = true → s.noneDue = true →
    s.deliveries = before ++ .tripNotice .stress :: after → (∀ d ∈ before, d.toEngine .stress = false) →
    u = { s with deliveries := before ++ after } →
    exec (.tripNotice .stress) s = .next
      (match s.stress.state with
      | .idle => u
      | .waitFlow =>
        State.endTest .abortedTrip false { u with deliveries := u.deliveries ++ [.release .stress] }
      | .stepRamp | .stepHold | .suspended =>
        State.enterUnloading .abortedTrip { u with stress := { u.stress with tripWait := true } }
      | .lockRamp | .seating | .liftCheck =>
        if s.stress.lock.hold = .trip then u
        else
          { u with
            marks := u.marks.filter fun m => !m.name.ofStress
            meas := { u.meas with compare := none }
            stress := { u.stress with
              tripWait := true
              lock := { u.stress.lock with hold := .trip, seatInserted := false } } }
      | .unloading | .finalRelease => { u with stress := { u.stress with tripWait := true } })
  )

/-- A duty write is refused under a latched trip and from an engine that does not own the output; it is
limited to 1000; 0 drives at once and a duty above 0 waits for the next VALVE_PERIOD_START; a duty above
0 on one jack output turns the other off. -/
def Obligations.DutyWritesAndPeriods : Prop :=
  (∀ (who : Engine) (v : Valve) (d : Nat) (s : State),
    (s.supply.latched = true ∨ valveOwner v ≠ who) → s.writeDuty who v d = s) ∧
  (∀ (v : Valve) (d : Nat) (s : State), s.supply.latched = false →
    ∀ t : State, t = s.writeDuty (valveOwner v) v d →
      (t.outputs.get v).set = min d 1000 ∧
      (t.outputs.get v).driven = (if d = 0 then 0 else (s.outputs.get v).driven) ∧
      (0 < d → v = .jackAdvance → 0 < s.outputs.jackRelease.set →
        t.outputs.jackRelease.set = 0 ∧ t.outputs.jackRelease.driven = 0) ∧
      (0 < d → v = .jackRelease → 0 < s.outputs.jackAdvance.set →
        t.outputs.jackAdvance.set = 0 ∧ t.outputs.jackAdvance.driven = 0) ∧
      (∀ w, w ≠ v → ¬ (0 < d ∧ 0 < (s.outputs.get w).set ∧
        ((v = .jackAdvance ∧ w = .jackRelease) ∨ (v = .jackRelease ∧ w = .jackAdvance))) →
        t.outputs.get w = s.outputs.get w) ∧
      { t with outputs := s.outputs } = s) ∧
  ∀ (v : Valve) (s : State), s.powered = true → s.noneDue = true →
    ∃ t, exec (.valvePeriodStart v) s = .next t ∧
    t.outputs.get v = ⟨(s.outputs.get v).set, (s.outputs.get v).set, s.settings.ditherHz⟩ ∧
    (∀ w, w ≠ v → t.outputs.get w = s.outputs.get w) ∧ { t with outputs := s.outputs } = s

/-! ## The measurement unit -/

/-- The rounding of quotients; the values that GROUT_SAMPLE and JACK_SAMPLE keep: the pressure nearest to
code * FS / 4095, never exactly between two, within 0..FS and FS at code 4095; the load from it; and an
over-range indication for code 4095 alone. -/
def Obligations.ConversionsRoundOnce : Prop :=
  (∀ (a : Int) (b : Nat), 0 < b →
    2 * (roundDiv a b * b - a).natAbs ≤ b ∧
    (2 * (roundDiv a b * b - a).natAbs = b → a.natAbs < (roundDiv a b * b).natAbs)) ∧
  (∀ (code : BitVec 12) (s : State), s.powered = true → s.noneDue = true →
    ∃ t x, exec (.groutSample code) s = .next t ∧ t.meas.grout = some x ∧
      2 * ((x.value * 4095 : Int) - code.toNat * s.settings.groutFs).natAbs < 4095 ∧
      x.value ≤ s.settings.groutFs ∧ (code.toNat = 4095 → x.value = s.settings.groutFs) ∧
      x.saturated = decide (code.toNat = 4095) ∧ x.code = code.toNat ∧ x.time = s.clock.time) ∧
  ∀ (code : BitVec 12) (s : State), s.powered = true → s.noneDue = true →
    ∃ t x, exec (.jackSample code) s = .next t ∧ t.meas.jack = some x ∧
      2 * ((x.value * 4095 : Int) - code.toNat * s.settings.jackFs).natAbs < 4095 ∧
      x.value ≤ s.settings.jackFs ∧ (code.toNat = 4095 → x.value = s.settings.jackFs) ∧
      2 * ((x.load * 10000000 : Int) -
        x.value * s.settings.ramArea * s.settings.efficiency).natAbs ≤ 10000000 ∧
      x.saturated = decide (code.toNat = 4095) ∧ x.code = code.toNat ∧ x.time = s.clock.time

/-- COUNT_STEP: one step of the sequence moves the counter by one, wrapping at 32 bits; the same pair
changes nothing; a step up of the ram that reaches the compare point fires the compare; both phases at
once are a fault, which is counted, raised, and aborts a test or ends a lock-off. That a crossing with
no jack sample hands nothing on is the model's choice (log entry 26). -/
def Obligations.CountStepsMoveCounters : Prop :=
  (∀ (enc : Encoder) (s : State), s.powered = true → s.noneDue = true →
    exec (.countStep enc (s.meas.encoder enc).pair) s = .next s) ∧
  (∀ s : State, s.powered = true → s.noneDue = true →
    exec (.countStep .drum (nextPair s.meas.drum.pair)) s = .next { s with meas := { s.meas with
      drum := { s.meas.drum with
        count := s.meas.drum.count + 1, pair := nextPair s.meas.drum.pair } } }) ∧
  (∀ (pair : PhasePair) (s : State), s.powered = true → s.noneDue = true →
    nextPair pair = s.meas.drum.pair →
    exec (.countStep .drum pair) s = .next { s with meas := { s.meas with
      drum := { s.meas.drum with count := s.meas.drum.count - 1, pair := pair } } }) ∧
  (∀ (pair : PhasePair) (s : State), s.powered = true → s.noneDue = true →
    nextPair pair = s.meas.ram.pair →
    exec (.countStep .ram pair) s = .next { s with meas := { s.meas with
      ram := { s.meas.ram with count := s.meas.ram.count - 1, pair := pair } } }) ∧
  (∀ s u : State, s.powered = true → s.noneDue = true →
    u = { s with meas := { s.meas with
      ram := { s.meas.ram with
        count := s.meas.ram.count + 1, pair := nextPair s.meas.ram.pair } } } →
    (s.meas.compare = none → exec (.countStep .ram (nextPair s.meas.ram.pair)) s = .next u) ∧
    ∀ point, s.meas.compare = some point →
      (u.displacement < point →
        exec (.countStep .ram (nextPair s.meas.ram.pair)) s = .next u) ∧
      (∀ x, point ≤ u.displacement → s.meas.jack = some x →
        exec (.countStep .ram (nextPair s.meas.ram.pair)) s = .next
          { u with
            meas := { u.meas with compare := none }
            deliveries := s.deliveries ++ [.capture x] }) ∧
      (point ≤ u.displacement → s.meas.jack = none →
        exec (.countStep .ram (nextPair s.meas.ram.pair)) s = .next
          { u with meas := { u.meas with compare := none } })) ∧
  (∀ (pair : PhasePair) (s u : State), s.powered = true → s.noneDue = true →
    phaseMove s.meas.drum.pair pair = .fault →
    u = { s with
      meas := { s.meas with drum := { s.meas.drum with
        pair := pair, faults := satSucc 255 s.meas.drum.faults } }
      ports := s.ports.raise .encoderFault } →
    exec (.countStep .drum pair) s = .next
      (match s.winch.state with
      | .idle | .stopped => u
      | .waitFlow | .run | .slow => u.stopWinch .encoder)) ∧
  ∀ (pair : PhasePair) (s u : State), s.powered = true → s.noneDue = true →
    phaseMove s.meas.ram.pair pair = .fault →
    u = { s with
      meas := { s.meas with ram := { s.meas.ram with
        pair := pair, faults := satSucc 255 s.meas.ram.faults } }
      ports := s.ports.raise .encoderFault } →
    exec (.countStep .ram pair) s = .next
      (match s.stress.state with
      | .idle | .unloading | .finalRelease => u
      | .waitFlow | .stepRamp | .stepHold | .suspended => u.abortTest .abortedEncoder
      | .lockRamp | .seating | .liftCheck => u.endLockOff .lockoffIncomplete)

/-! ## The stress engine -/

/-- An accepted START_TEST: the start transition, the engine in WAIT_FLOW at step 1 with its copies of the
design and the profile, the targets and the lock-off load, the ram references, and the stress claim; the
reply gives the step count, the targets and the lock-off load. That every figure of the last test is
cleared, and that the stress engine keeps no jack sample from before the test, is the model's (log entry
20). -/
def Obligations.StartTestTakesAnchor : Prop :=
  ∀ (p : PortNo) (form : List Byte) (s : State) (r : Request) (ps : List Byte) (a : Anchor)
    (steps : List Step) (groutEnd : Nat) (targets : List Nat) (lock : Nat),
    Handed (.startTest p form) s r ps → ps.length = 3 → (positionAt ps 0).valid = true →
    s.register.find (positionAt ps 0) = some a → (a.state = .grouted ∨ a.state = .failed) →
    a.testPart.count < 4 → s.stress.state = .idle → s.journal.state ≠ .appending →
    s.journal.state ≠ .fault → 727 ≤ s.journal.room → s.clock.running = true →
    a.grout.bind GroutPart.endTime = some groutEnd →
    groutEnd + 3600 * s.settings.curePeriod ≤ s.clock.time / 1024 →
    s.settings.profile a.design.profile = some steps →
    peakPressure s.settings a.design steps ≤ s.settings.jackMax →
    (∀ b ∈ s.register.records, b.pos.panel = a.pos.panel → b.state ≠ .grouting) →
    (∀ q, (q + 1 = a.pos.panel ∨ q = a.pos.panel ∨ q = a.pos.panel + 1) → 1 ≤ q →
      q ≤ s.settings.panelCount → (panelAt s.panels q).state = .clear) →
    lock = roundDivNat (a.design.workLoad * a.design.lockRatio) 1000 →
    (∀ q, (q + 1 = a.pos.panel ∨ q = a.pos.panel + 1) → 1 ≤ q → q ≤ s.settings.panelCount →
      ((panelAt s.panels a.pos.panel).lockedSum + lock - (panelAt s.panels q).lockedSum : Int).natAbs
        ≤ s.settings.imbalanceLimit) →
    s.supply.latched = false →
    targets = steps.map (fun st => roundDivNat (a.design.workLoad * st.target) 1000) →
    exec (.startTest p form) s =
      s.replied r .ok (enc8 steps.length ++ targets.flatMap enc16 ++ enc16 lock) fun u =>
        { u with
          register := { u.register with
            records := u.register.records.map fun b =>
              if b.pos = a.pos then
                { b with
                  state := .testing, interrupted := false
                  work := some ⟨.test, some a.state, s.clock.time / 1024⟩ }
              else b }
          stress := { Stress.atStartUp with
            state := .waitFlow, anchor := some a.pos, design := some a.design
            profileNo := some a.design.profile, steps := steps, targets := targets
            pLock := some lock, start := some s.clock.time, step := some 1 }
          meas := { u.meas with ramStart := u.meas.ram.count, ramDatum := none }
          deliveries := u.deliveries ++ [.claim .stress s.settings.stressDemand] }

/-- START_TEST makes its checks in the order of R134 and is refused on the first that fails, with the data
of that refusal; a refusal changes nothing. -/
def Obligations.StartTestRefusesInOrder : Prop :=
  ∀ (p : PortNo) (form : List Byte) (s : State) (r : Request) (ps : List Byte),
    Handed (.startTest p form) s r ps →
    (ps.length ≠ 3 → exec (.startTest p form) s = s.replied r .badForm [] id) ∧
    (ps.length = 3 → (positionAt ps 0).valid = false →
      exec (.startTest p form) s = s.replied r .outOfRange [] id) ∧
    (ps.length = 3 → (positionAt ps 0).valid = true → s.register.find (positionAt ps 0) = none →
      exec (.startTest p form) s = s.replied r .noAnchor [] id) ∧
    ∀ (a : Anchor) (st : Status) (data : List Byte), ps.length = 3 →
      (positionAt ps 0).valid = true → s.register.find (positionAt ps 0) = some a →
      (if a.state ≠ .grouted ∧ a.state ≠ .failed then some (.wrongState, [])
      else if 4 ≤ a.testPart.count then some (.limit, [])
      else if s.stress.state ≠ .idle then some (.engineBusy, [])
      else if s.journal.state = .appending then some (.journalBusy, [])
      else if s.journal.state = .fault then some (.journalFault, [])
      else if s.journal.room < 727 then some (.journalFull, enc32 s.journal.room)
      else if s.clock.running = false then some (.noTime, [])
      else
        match a.hoursToCure s.settings.curePeriod (s.clock.time / 1024),
          s.settings.profile a.design.profile with
        | some h, _ => some (.groutYoung, enc16 h)
        | none, none => some (.noProfile, enc8 a.design.profile)
        | none, some steps =>
          if s.settings.jackMax < peakPressure s.settings a.design steps then
            some (.overCapacity, enc32 (peakPressure s.settings a.design steps))
          else if s.register.panelHolds a.pos.panel .grouting = true then some (.panelBusy, [])
          else
            match s.panelHeld a.pos.panel, s.imbalanced a.pos.panel a.design.lockLoad with
            | some q, _ => some (.panelHeld, enc8 q ++ enc8 (panelAt s.panels q).state.code)
            | none, some q => some (.imbalance,
              enc8 q ++ enc32 (s.imbalance a.pos.panel a.design.lockLoad q))
            | none, none => if s.supply.latched = true then some (.tripped, []) else none) =
        some (st, data) →
      exec (.startTest p form) s = s.replied r st data id

/-- The ways a test ends: UNLOADING with its pending end, an abort at once from WAIT_FLOW, and the end of an
aborted test, at which the register gives the anchor back its return state. That the figures which no
rule clears stay at the return to IDLE, and the ramp direction in UNLOADING, is the model's (log entries
38, 43). -/
def Obligations.TestEndsAndAborts : Prop :=
  (∀ (code : TestCode) (s : State), s.enterUnloading code =
    { s with
      marks := s.marks.filter fun m => !m.name.ofStress
      deliveries := s.deliveries ++ [.release .stress]
      stress := { s.stress with
        state := .unloading, makingUp := false, suspension := none, pendingEnd := some code }
      outputs := if s.supply.latched = true then s.outputs
        else if s.stress.tripWait = true then s.outputs.write .jackAdvance 0
        else (s.outputs.write .jackAdvance 0).write .jackRelease
          (min s.settings.rampDuty 1000) }) ∧
  (∀ (code : TestCode) (s : State), s.abortTest code =
    if s.stress.state = .waitFlow then
      State.endTest code true { s with deliveries := s.deliveries ++ [.release .stress] }
    else s.enterUnloading code) ∧
  (∀ (code : TestCode) (counted : Bool) (s : State) (pos : Position), code.isAbort = true →
    s.stress.anchor = some pos →
    s.endTest code counted =
      { s with
        outputs := if s.supply.latched = true then s.outputs else
          { s.outputs with
            jackAdvance := { s.outputs.jackAdvance with set := 0, driven := 0 }
            jackRelease := { s.outputs.jackRelease with set := 0, driven := 0 } }
        register := { s.register with
          records := s.register.records.map fun b =>
            if b.pos = pos ∧ b.state = .testing then
              { b with
                state := (b.work.bind Work.ret).getD .testing
                work := none
                test := some
                  { count := (b.test.map TestPart.count).getD 0 + (if counted = true then 1 else 0)
                    last := code, creep := s.stress.creepFigure, lApp := none
                    residual := b.test.bind TestPart.residual
                    index := b.test.bind TestPart.index } }
            else b }
        stress := { s.stress with
          state := .idle, anchor := none, design := none, accepted := false, pendingEnd := none
          tripWait := false, makingUp := false, suspension := none }
        ports := s.ports.raise .testEnd }) ∧
  ∀ (p : PortNo) (form : List Byte) (s : State) (r : Request), Handed (.abortTest p form) s r [] →
    exec (.abortTest p form) s =
      match s.stress.state with
      | .idle => s.replied r .wrongState [] id
      | .waitFlow | .stepRamp | .stepHold | .suspended =>
        s.replied r .ok [] (State.abortTest .abortedConsole)
      | .lockRamp | .seating | .liftCheck | .finalRelease => s.replied r .late [] id
      | .unloading =>
        if s.stress.pendingEnd.any (fun code => !code.isAbort) then s.replied r .late [] id
        else s.replied r .wrongState [] id

/-- The end of an evaluated test: the record RECORDING with its result, the slot filled with the
certificate, and the append asked for in the same change. That the figures which no rule clears stay at
the return to IDLE is the model's (log entry 38). -/
def Obligations.EvaluatedEnds : Prop :=
  ∀ (result : TestCode) (counted : Bool) (s : State) (pos : Position) (a : Anchor)
    (record : List Byte),
    result.isAbort = false → s.stress.anchor = some pos → s.register.find pos = some a →
    a.state = .testing → s.journal.state = .ready →
    record = certificateRecord s.stress a result ((a.test.map TestPart.count).getD 0 + 1)
      (s.clock.time / 1024) →
    s.endTest result counted =
      { s with
        outputs := if s.supply.latched = true then s.outputs else
          { s.outputs with
            jackAdvance := { s.outputs.jackAdvance with set := 0, driven := 0 }
            jackRelease := { s.outputs.jackRelease with set := 0, driven := 0 } }
        register := { s.register with
          records := s.register.records.map fun b =>
            if b.pos = pos then
              { b with
                state := .recording
                work := none
                test := some
                  { count := (b.test.map TestPart.count).getD 0 + 1
                    last := result, creep := s.stress.creepFigure
                    lApp := s.stress.lengths.map LengthFigures.lApp
                    residual := b.test.bind TestPart.residual, index := none } }
            else b
          slot := some ⟨record, pos, (a.test.map TestPart.count).getD 0 + 1, result,
            s.stress.lock.residual⟩ }
        journal := { s.journal with
          state := .appending, inFlight := some ⟨.certificate, record, .register⟩ }
        stress := { s.stress with
          state := .idle, anchor := none, design := none, accepted := false, pendingEnd := none
          tripWait := false, makingUp := false, suspension := none }
        ports := s.ports.raise .testEnd }

/-- A JACK_SAMPLE: kept, and ignored by an IDLE engine; before acceptance the limit checks abort the test,
in the lock-off they end it incomplete, and while the jack is released a load at or below the approach
band ends the test. -/
def Obligations.JackSamplesAndLimits : Prop :=
  ∀ (code : BitVec 12) (s u : State) (x : Sample) (v : JackView), s.powered = true →
    s.noneDue = true →
    x = s.jackSampleOf code → v = s.jackView x →
    u = { s with
      meas := { s.meas with jack := some x }, stress := { s.stress with latest := some v } } →
    (s.stress.state = .idle → exec (.jackSample code) s =
      .next { s with meas := { s.meas with jack := some x } }) ∧
    ((s.stress.state = .waitFlow ∨ s.stress.state = .stepRamp ∨ s.stress.state = .stepHold ∨
        s.stress.state = .suspended) →
      (x.saturated = true → exec (.jackSample code) s =
        .next ((u.abortTest .abortedOverrange).raise .channelTrip)) ∧
      (x.saturated = false → s.settings.jackMax < x.value → exec (.jackSample code) s =
        .next ((u.abortTest .abortedOverpressure).raise .channelTrip)) ∧
      (x.saturated = false → x.value ≤ s.settings.jackMax →
        s.settings.ramStroke * 100 < v.travel.natAbs → exec (.jackSample code) s =
        .next (u.abortTest .abortedStroke))) ∧
    ((s.stress.state = .lockRamp ∨ s.stress.state = .seating ∨ s.stress.state = .liftCheck) →
      ((x.saturated = true ∨ s.settings.jackMax < x.value) → exec (.jackSample code) s =
        .next ((u.endLockOff .lockoffIncomplete).raise .channelTrip)) ∧
      (x.saturated = false → x.value ≤ s.settings.jackMax →
        s.settings.ramStroke * 100 < v.travel.natAbs → exec (.jackSample code) s =
        .next (u.endLockOff .lockoffIncomplete))) ∧
    ((s.stress.state = .unloading ∨ s.stress.state = .finalRelease) →
      (∀ e, x.load ≤ s.settings.approachBand → s.stress.pendingEnd = some e →
        exec (.jackSample code) s = .next (u.endTest e true)) ∧
      (s.settings.approachBand < x.load → exec (.jackSample code) s = .next
        (if s.stress.tripWait = true ∨ s.supply.latched = true ∨
            s.outputs.jackRelease.set = s.settings.rampDuty then u
        else
          { u with
            outputs := s.outputs.write .jackRelease (min s.settings.rampDuty 1000) })))

/-- A JACK_SAMPLE that passes the limit checks, before acceptance: STEP_RAMP drives towards the target,
slowly within the approach band, and starts the hold with its marks when it is reached; STEP_HOLD and
SUSPENDED make up a load lost. That the ramp direction stays as it was when the target is reached is the
model's (log entry 43). -/
def Obligations.RampsAndMakeUps : Prop :=
  ∀ (code : BitVec 12) (s u : State) (x : Sample) (v : JackView), s.powered = true →
    s.noneDue = true →
    x = s.jackSampleOf code → v = s.jackView x → x.saturated = false →
    x.value ≤ s.settings.jackMax → v.travel.natAbs ≤ s.settings.ramStroke * 100 →
    u = { s with
      meas := { s.meas with jack := some x }, stress := { s.stress with latest := some v } } →
    (s.stress.state = .waitFlow → exec (.jackSample code) s = .next u) ∧
    (∀ (i : Nat) (st : Step) (target : Int), s.stress.state = .stepRamp →
      s.stress.step = some (i + 1) → s.stress.steps[i]? = some st →
      target = (s.stress.targets.getD i 0 : Nat) →
      (((s.stress.dir = .up ∧ target ≤ x.load) ∨ (s.stress.dir = .down ∧ x.load ≤ target) ∨
          (s.stress.dir = .undecided ∧ (x.load : Int) = target)) →
        exec (.jackSample code) s = .next
          (State.insertHoldMarks (i + 1) st s.clock.time
            { u with
              outputs := if s.supply.latched = true then s.outputs else
                { s.outputs with
                  jackAdvance := { s.outputs.jackAdvance with set := 0, driven := 0 }
                  jackRelease := { s.outputs.jackRelease with set := 0, driven := 0 } }
              stress := { u.stress with
                state := .stepHold, holdStart := some s.clock.time, extended := false
                makingUp := false } })) ∧
      ((s.stress.dir = .up ∨ s.stress.dir = .undecided) → (x.load : Int) < target →
        exec (.jackSample code) s = .next (State.drive .jackAdvance
          (if target - s.settings.approachBand ≤ x.load then s.settings.approachDuty
            else s.settings.rampDuty)
          { u with stress := { u.stress with dir := .up } })) ∧
      ((s.stress.dir = .down ∨ s.stress.dir = .undecided) → target < (x.load : Int) →
        exec (.jackSample code) s = .next (State.drive .jackRelease
          (if (x.load : Int) ≤ target + s.settings.approachBand then s.settings.approachDuty
            else s.settings.rampDuty)
          { u with stress := { u.stress with dir := .down } }))) ∧
    ∀ level : Nat,
      ((s.stress.state = .stepHold ∧ ∃ i, s.stress.step = some (i + 1) ∧
          s.stress.targets.getD i 0 = level) ∨
        (s.stress.state = .suspended ∧ ∃ k, s.stress.suspension = some ⟨level, k⟩)) →
      exec (.jackSample code) s = .next
        (if s.stress.makingUp = true then
          if level ≤ x.load then
            { u with
              stress := { u.stress with makingUp := false }
              outputs := if s.supply.latched = true then s.outputs
                else s.outputs.write .jackAdvance 0 }
          else u
        else if (x.load : Int) < level - s.settings.makeUpBand then
          { u with
            stress := { u.stress with
              makingUp := true, makeUps := satSucc 65535 s.stress.makeUps }
            outputs := if s.supply.latched = true then s.outputs
              else s.outputs.write .jackAdvance (min s.settings.approachDuty 1000) }
        else u)

/-- The marks of a hold: HOLD_END at its end, and for a creep step a CREEP mark at a tenth of the hold and,
when the extended point lies within the hold, one at a tenth of the extended hold; a duty is written
only when it differs from the set duty. The creep figures are the exact differences of recorded
displacements, and the progression of a step goes to the next ramp, to the free-length evaluation after
the RETURN step, or, with the wall not quiet, into a suspension. CREEP_EXPIRY in STEP_HOLD on the mark's
step records a MARK reading of the latest jack sample; SUSPENSION_EXPIRY aborts a suspended test with
ABORTED_WALL. The expiry as a command of its own, that a step's hold start and extended flag stay until
the next hold, and that a CREEP mark which expires outside STEP_HOLD on its step changes nothing else
are the model's (log entries 5, 39, 45). -/
def Obligations.HoldMarksAndCreepFigures : Prop :=
  (
  (∀ (i : Nat) (st : Step) (t : SiteTime) (s : State), s.insertHoldMarks i st t =
    let a := s.insertMark (.holdEnd i) (min (t + st.hold * 1024) Config.maxTime)
    let b := if st.creep = true then
        a.insertMark (.creep i .base) (min (t + st.hold / 10 * 1024) Config.maxTime) else a
    if st.creep = true ∧ st.ext ≠ 0 ∧ st.ext / 10 < st.hold then
      b.insertMark (.creep i .extended) (min (t + st.ext / 10 * 1024) Config.maxTime) else b) ∧
  ∀ (v : Valve) (d : Nat) (s : State), valveOwner v = .stress → s.drive v d =
    if (s.outputs.get v).set = d ∨ s.supply.latched = true then s
    else { s with outputs := s.outputs.write v (min d 1000) }
  ) ∧
  (
  (∀ (e : Stress) (i : Nat) (m f : Reading) (ms fs : List Reading),
    e.readings i .mark = m :: ms → e.readings i .stepEnd = f :: fs →
    e.alpha i = f.disp - m.disp) ∧
  (∀ (e : Stress) (i : Nat) (st : Step) (f g x : Reading) (fs : List Reading),
    e.readings i .stepEnd = f :: g :: fs →
    ((st.creep = true ∧ st.ext ≠ 0 ∧ st.ext / 10 < st.hold ∧
        (e.readings i .mark)[1]? = some x) ∨
      (¬ (st.creep = true ∧ st.ext ≠ 0 ∧ st.ext / 10 < st.hold) ∧ x = f)) →
    e.alphaExt i st = g.disp - x.disp) ∧
  ∀ (s : State) (i : Nat) (st : Step), s.stress.step = some (i + 1) →
    s.stress.steps[i]? = some st →
    s.progress =
      if s.testQuiet = true then
        if st.role = .ret then s.evaluateLength
        else { s with stress := { s.stress with
          state := .stepRamp, step := some (i + 2), dir := .undecided } }
      else s.suspend (if st.role = .ret then .evaluate else .nextStep)
  ) ∧
  (
  (∀ (i : Nat) (pt : CreepPoint) (s : State) (due : SiteTime) (rest : List Mark),
    s.powered = true → s.marks = ⟨due, .creep i pt⟩ :: rest → due ≤ s.clock.time →
    exec .creepExpiry s = .next
      (if s.stress.state = .stepHold ∧ s.stress.step = some i then
        { s with
          marks := rest
          stress := { s.stress with
            log := s.stress.log ++ [⟨i, .mark, s.readingTime,
              (s.stress.latest.map JackView.load).getD 0,
              (s.stress.latest.map JackView.disp).getD 0⟩] } }
      else { s with marks := rest })) ∧
  ∀ (i : Nat) (s : State) (due : SiteTime) (rest : List Mark),
    s.powered = true → s.marks = ⟨due, .suspension i⟩ :: rest → due ≤ s.clock.time →
    exec .suspensionExpiry s = .next
      (if s.stress.state = .suspended then
        State.enterUnloading .abortedWall { s with marks := rest }
      else { s with marks := rest })
  )

/-- HOLD_END_EXPIRY in STEP_HOLD on the mark's step: the make-up ended, the STEP_END reading recorded, at 0
with a new datum count for the DATUM step, and then the progression of the step, the judgement of its
creep figure, or the extension of its hold. The expiry as a command of its own, the free value of a
reading that the log does not hold, and that the creep list's figure of an extended step is formed anew
from the log at the end of the extended hold are the model's (log entries 5, 10, 47). -/
def Obligations.HoldEndsAreJudged : Prop :=
  ∀ (i : Nat) (st : Step) (s u : State) (due : SiteTime) (rest : List Mark), s.powered = true →
    s.marks = ⟨due, .holdEnd (i + 1)⟩ :: rest → due ≤ s.clock.time →
    ((s.stress.state ≠ .stepHold ∨ s.stress.step ≠ some (i + 1)) →
      exec .holdEndExpiry s = .next { s with marks := rest }) ∧
    (s.stress.state = .stepHold → s.stress.step = some (i + 1) → s.stress.steps[i]? = some st →
      u = { s with
        marks := rest
        outputs := if s.stress.makingUp = true ∧ s.supply.latched = false
          then s.outputs.write .jackAdvance 0 else s.outputs
        meas := if st.role = .datum then { s.meas with ramDatum := some s.meas.ram.count }
          else s.meas
        stress := { s.stress with
          makingUp := false
          log := s.stress.log ++ [⟨i + 1, .stepEnd, s.readingTime,
            (s.stress.latest.map JackView.load).getD 0,
            if st.role = .datum then 0 else (s.stress.latest.map JackView.disp).getD 0⟩] } } →
      (st.creep = false → exec .holdEndExpiry s = .next u.progress) ∧
      (st.creep = true → s.stress.extended = false →
        s.settings.creepLimit < u.stress.alpha (i + 1) → st.ext ≠ 0 →
        exec .holdEndExpiry s = .next (State.insertMark (.holdEnd (i + 1))
          (min (s.stress.holdStart.getD 0 + st.ext * 1024) Config.maxTime)
          { u with stress := { u.stress with
            extended := true, creepFigure := some (u.stress.alpha (i + 1)) } })) ∧
      (∀ (ext : Option Int) (figure : Int) (w : State), st.creep = true →
        ((s.stress.extended = true ∧ ext = some (u.stress.alphaExt (i + 1) st) ∧
            figure = u.stress.alphaExt (i + 1) st) ∨
          (s.stress.extended = false ∧ ext = none ∧ figure = u.stress.alpha (i + 1) ∧
            (figure ≤ s.settings.creepLimit ∨ st.ext = 0))) →
        w = { u with stress := { u.stress with
          creep := u.stress.creep ++ [⟨i + 1, u.stress.alpha (i + 1), ext⟩]
          creepFigure := some figure } } →
        exec .holdEndExpiry s = .next
          (if figure ≤ s.settings.creepLimit then w.progress
          else w.enterUnloading .creepFail)))

/-- PANEL_CHANGE_DELIVERY: a ramp is suspended while the wall is not quiet; a suspended test resumes, by its
resume kind, once it is; every other state, and any other panel, is left alone. The change in flight,
that a step's hold start and extended flag stay until the next hold, and that the ramp direction stays
in a suspension, are the model's (log entries 4, 39, 43). -/
def Obligations.PanelChangesReachTest : Prop :=
  (∀ (k : ResumeKind) (s : State), s.suspend k =
    State.insertMark (.suspension (s.stress.step.getD 0))
      (min (s.clock.time + s.settings.suspensionLimit * 1024) Config.maxTime)
      { s with
        outputs := if s.supply.latched = true then s.outputs else
          { s.outputs with
            jackAdvance := { s.outputs.jackAdvance with set := 0, driven := 0 }
            jackRelease := { s.outputs.jackRelease with set := 0, driven := 0 } }
        stress := { s.stress with
          state := .suspended, makingUp := false
          suspension := some ⟨(s.stress.latest.map JackView.load).getD 0, k⟩
          suspensions := satSucc 255 s.stress.suspensions }
        ports := s.ports.raise .testSuspended }) ∧
  ∀ (panel : Nat) (x y : PanelState) (s u w : State) (before after : List Delivery),
    s.powered = true → s.noneDue = true → s.deliveries = before ++ .panelChange panel x y :: after →
    (∀ d ∈ before, d.panelOf = none) →
    u = { s with deliveries := before ++ after } →
    w = { u with
      marks := s.marks.filter fun m => m.name != .suspension (s.stress.step.getD 0)
      outputs := if s.stress.makingUp = true ∧ s.supply.latched = false
        then s.outputs.write .jackAdvance 0 else s.outputs
      stress := { s.stress with makingUp := false, suspension := none } } →
    (s.stress.anchor = none → exec .panelChangeDelivery s = .next u) ∧
    ∀ pos : Position, s.stress.anchor = some pos →
    ((¬ (panel + 1 = pos.panel ∨ panel = pos.panel ∨ panel = pos.panel + 1) ∨
        (s.stress.state ≠ .stepRamp ∧ s.stress.state ≠ .suspended) ∨
        (s.stress.state = .stepRamp ∧ s.wallQuiet pos.panel = true) ∨
        (s.stress.state = .suspended ∧ s.wallQuiet pos.panel = false)) →
      exec .panelChangeDelivery s = .next u) ∧
    ((panel + 1 = pos.panel ∨ panel = pos.panel ∨ panel = pos.panel + 1) →
      s.stress.state = .stepRamp → s.wallQuiet pos.panel = false →
      exec .panelChangeDelivery s = .next (u.suspend .ramp)) ∧
    ((panel + 1 = pos.panel ∨ panel = pos.panel ∨ panel = pos.panel + 1) →
      s.stress.state = .suspended → s.wallQuiet pos.panel = true →
      ∀ (load i : Nat), s.stress.step = some i →
        (s.stress.suspension = some ⟨load, .ramp⟩ → exec .panelChangeDelivery s = .next
          { w with stress := { w.stress with
            state := .stepRamp, step := some i, dir := .undecided } }) ∧
        (s.stress.suspension = some ⟨load, .nextStep⟩ → exec .panelChangeDelivery s = .next
          { w with stress := { w.stress with
            state := .stepRamp, step := some (i + 1), dir := .undecided } }) ∧
        (s.stress.suspension = some ⟨load, .evaluate⟩ →
          exec .panelChangeDelivery s = .next w.evaluateLength))

/-! ## Acceptance and lock-off -/

/-- The apparent free length: formed from the step ends of the DATUM, PEAK and RETURN steps, with the
quotient rounded once and clamped; indeterminate, failed, or within its limits the acceptance. -/
def Obligations.FreeLengthIsJudged : Prop :=
  ∀ (s : State) (d : Design) (datum peak ret : Reading) (deltaP deltaS : Int) (l : Nat),
    s.stress.design = some d →
    (s.stress.readings (s.stress.roleIndex .datum) .stepEnd).getLast? = some datum →
    (s.stress.readings (s.stress.roleIndex .peak) .stepEnd).getLast? = some peak →
    (s.stress.readings (s.stress.roleIndex .ret) .stepEnd).getLast? = some ret →
    deltaP = peak.load - datum.load → deltaS = peak.disp - ret.disp →
    (l : Int) = (if deltaP < 100 ∨ deltaS ≤ 0 then 0
      else min 65535 (roundDiv (d.tendonArea * d.modulus * deltaS) (100 * deltaP.toNat))) →
    ∀ u : State, u = { s with stress := { s.stress with
      lengths := some ⟨datum.load, peak.load, peak.disp, ret.disp, deltaP, deltaS, l⟩ } } →
    s.evaluateLength =
      if deltaP < 100 ∨ deltaS ≤ 0 then u.enterUnloading .lengthIndeterminate
      else if l < roundDivNat (d.freeLength * 9) 10 ∨
          d.freeLength + roundDivNat d.bondLength 2 < l then u.enterUnloading .lengthFail
      else
        { u with stress := { u.stress with
          accepted := true, state := .lockRamp, dir := .undecided
          lock := { u.stress.lock with
            target := some (s.stress.pLock.getD 0), retries := 0, notLifted := false } } }

/-- JACK_SAMPLE in the lock-off: LOCK_RAMP drives to the lock target and then begins SEATING with a LOCK
reading; SEATING releases until the load is down and inserts its SEAT mark; LIFT_CHECK decides a head
that does not lift; under a lock-off hold nothing is made of the sample. That the ramp direction stays
as it was when the lock target is reached is the model's (log entry 43). -/
def Obligations.LockOffSamples : Prop :=
  ∀ (code : BitVec 12) (s u : State) (x : Sample) (v : JackView), s.powered = true →
    s.noneDue = true →
    x = s.jackSampleOf code → v = s.jackView x → x.saturated = false →
    x.value ≤ s.settings.jackMax → v.travel.natAbs ≤ s.settings.ramStroke * 100 →
    u = { s with
      meas := { s.meas with jack := some x }, stress := { s.stress with latest := some v } } →
    ((s.stress.state = .lockRamp ∨ s.stress.state = .seating ∨ s.stress.state = .liftCheck) →
      s.stress.lock.hold ≠ .none → exec (.jackSample code) s = .next u) ∧
    (s.stress.lock.hold = .none →
      (∀ target : Int, s.stress.state = .lockRamp → s.stress.lock.target = some target →
        (((s.stress.dir = .up ∧ target ≤ x.load) ∨ (s.stress.dir = .down ∧ x.load ≤ target) ∨
            (s.stress.dir = .undecided ∧ (x.load : Int) = target)) →
          exec (.jackSample code) s = .next
            { u with
              outputs := if s.supply.latched = true then s.outputs else
                Outputs.write .jackRelease (min s.settings.rampDuty 1000)
                  { s.outputs with
                    jackAdvance := { s.outputs.jackAdvance with set := 0, driven := 0 }
                    jackRelease := { s.outputs.jackRelease with set := 0, driven := 0 } }
              stress := { u.stress with
                state := .seating
                log := s.stress.log ++
                  [⟨s.stress.step.getD 0, .lock, s.readingTime, x.load, v.disp⟩]
                lock := { s.stress.lock with sLock := some v.disp, seatInserted := false } } }) ∧
        ((s.stress.dir = .up ∨ s.stress.dir = .undecided) → (x.load : Int) < target →
          exec (.jackSample code) s = .next (State.drive .jackAdvance
            (if target - s.settings.approachBand ≤ x.load then s.settings.approachDuty
              else s.settings.rampDuty)
            { u with stress := { u.stress with dir := .up } })) ∧
        ((s.stress.dir = .down ∨ s.stress.dir = .undecided) → target < (x.load : Int) →
          exec (.jackSample code) s = .next (State.drive .jackRelease
            (if (x.load : Int) ≤ target + s.settings.approachBand then s.settings.approachDuty
              else s.settings.rampDuty)
            { u with stress := { u.stress with dir := .down } }))) ∧
      (s.stress.state = .seating → exec (.jackSample code) s = .next
        (if s.stress.lock.seatInserted = true then u
        else if x.load ≤ s.settings.approachBand then
          State.insertMark (.seat (s.stress.step.getD 0))
            (min (s.clock.time + s.settings.seatTime * 1024) Config.maxTime)
            { u with
              outputs := if s.supply.latched = true then s.outputs
                else s.outputs.write .jackRelease 0
              stress := { u.stress with lock := { s.stress.lock with seatInserted := true } } }
        else State.drive .jackRelease s.settings.rampDuty u)) ∧
      (s.stress.state = .liftCheck → exec (.jackSample code) s = .next
        (if roundDivNat (s.stress.pLock.getD 0 * (1000 + 2 * s.settings.lockTolerance)) 1000 <
            x.load then
          State.decideLift x.load
            { u with
              outputs := if s.supply.latched = true then s.outputs
                else s.outputs.write .jackAdvance 0
              meas := { u.meas with compare := none }
              stress := { u.stress with
                log := s.stress.log ++
                  [⟨s.stress.step.getD 0, .lift, s.readingTime, x.load, v.disp⟩]
                lock := { s.stress.lock with residual := some x.load, notLifted := true } } }
        else u)))

/-- SEAT_EXPIRY in SEATING records a SEAT reading, forms the draw-in and the compare point and begins
LIFT_CHECK; LIFT_OFF_CAPTURE in LIFT_CHECK records the residual and decides the lift, or ends the
lock-off on a saturated sample. A lift is decided against P_lock: within the band the test is ACCEPTED;
outside it a first lift is retried to min(peak T, 2 P_lock - residual), and a second is a
LOCKOFF_DEVIATION; and the lock-off ends in FINAL_RELEASE. The capture in flight, the expiry as a
command of its own, that the ramp direction stays in FINAL_RELEASE, and that a capture in lock-off hold
TRIP or FLOW changes nothing, are the model's (log entries 4, 5, 43, 46). -/
def Obligations.LiftsAreDecided : Prop :=
  (
  (∀ (i : Nat) (s : State) (due : SiteTime) (rest : List Mark) (disp : Int), s.powered = true →
    s.marks = ⟨due, .seat i⟩ :: rest → due ≤ s.clock.time →
    disp = (s.stress.latest.map JackView.disp).getD 0 →
    exec .seatExpiry s = .next
      (if s.stress.state = .seating then
        { s with
          marks := rest
          meas := { s.meas with
            compare := some (s.stress.lock.sLock.getD 0 + s.settings.liftTravel) }
          outputs := if s.supply.latched = true then s.outputs
            else s.outputs.write .jackAdvance (min s.settings.approachDuty 1000)
          stress := { s.stress with
            state := .liftCheck
            log := s.stress.log ++ [⟨s.stress.step.getD 0, .seat, s.readingTime,
              (s.stress.latest.map JackView.load).getD 0, disp⟩]
            lock := { s.stress.lock with
              sSeat := some disp
              drawIn := some (s.stress.lock.sLock.getD 0 - disp)
              point := some (s.stress.lock.sLock.getD 0 + s.settings.liftTravel) } } }
      else { s with marks := rest })) ∧
  ∀ (x : Sample) (s u : State) (before after : List Delivery), s.powered = true → s.noneDue = true →
    s.deliveries = before ++ .capture x :: after → (∀ d ∈ before, d.captureOf = none) →
    u = { s with deliveries := before ++ after } →
    exec .liftOffCapture s = .next
      (if s.stress.state = .liftCheck ∧ s.stress.lock.hold = .none then
        if x.saturated = true then (u.endLockOff .lockoffIncomplete).raise .channelTrip
        else
          State.decideLift x.load
            { u with
              outputs := if s.supply.latched = true then s.outputs
                else s.outputs.write .jackAdvance 0
              stress := { s.stress with
                log := s.stress.log ++ [⟨s.stress.step.getD 0, .lift, s.readingTime, x.load,
                  s.stress.lock.point.getD 0⟩]
                lock := { s.stress.lock with residual := some x.load, notLifted := false } } }
      else u)
  ) ∧
  (
  (∀ (residual : Nat) (s : State) (lock : Nat), s.stress.pLock = some lock →
    s.decideLift residual =
      if ((residual : Int) - lock).natAbs ≤
          roundDivNat (lock * s.settings.lockTolerance) 1000 then s.endLockOff .accepted
      else if s.stress.lock.retries = 0 then
        { s with stress := { s.stress with
          state := .lockRamp, dir := .undecided
          lock := { s.stress.lock with
            retries := 1
            target := some (min (s.stress.targetAt (s.stress.roleIndex .peak) : Int)
              (2 * lock - residual)) } } }
      else s.endLockOff .lockoffDeviation) ∧
  ∀ (result : TestCode) (s : State), s.endLockOff result =
    { s with
      marks := s.marks.filter fun m => !m.name.ofStress
      meas := { s.meas with compare := none }
      deliveries := s.deliveries ++ [.release .stress]
      outputs := if s.supply.latched = true then s.outputs
        else (s.outputs.write .jackAdvance 0).write .jackRelease (min s.settings.rampDuty 1000)
      stress := { s.stress with
        state := .finalRelease, pendingEnd := some result, tripWait := s.supply.latched
        lock := { s.stress.lock with hold := .none, result := some result } } }
  )

/-! ## The wall panels -/

/-- A wall reading is dropped for its panel, its time, or its age, or taken: its deflection clamped, the
panel's state derived, a change counted, raised and delivered, and the STALENESS mark placed; POST_WALL
takes its readings in order and answers with what became of each. STALENESS_EXPIRY: the panel whose mark
is due becomes STALE, with the change counted, raised and delivered, and keeps its reading. READ_PANELS
returns fifteen bytes a panel, from the first asked to the count or the last panel. The expiry as a
command of its own is the model's (log entry 5). -/
def Obligations.WallReadings : Prop :=
  (
  (∀ (r : WallReading) (s : State) (old : Panel) (d : Int) (new : PanelState),
    s.panels[r.panel - 1]? = some old → d = max (-3000) (min 3000 r.deflection) →
    new = (if d.natAbs < s.settings.alertLevel then .clear
      else if d.natAbs < s.settings.actionLevel then .alert else .action) →
    s.wallReading r =
      if r.panel = 0 ∨ s.settings.panelCount < r.panel then (s, .noPanel)
      else if s.clock.time / 1024 + 60 < r.time then (s, .ahead)
      else if (old.reading.any fun x => decide (r.time ≤ x.2)) = true then (s, .old)
      else
        ({ s with
          panels := s.panels.set (r.panel - 1)
            { old with
              state := new, reading := some (d, r.time)
              changes := if old.state = new then old.changes else (old.changes + 1) % 65536 }
          marks := placeMark
            ⟨min ((r.time + s.settings.stalePeriod) * 1024) Config.maxTime, .staleness r.panel⟩
            (s.marks.filter fun m => m.name != .staleness r.panel)
          ports := if old.state = new then s.ports else s.ports.raise .panelChange
          deliveries := if old.state = new then s.deliveries
            else s.deliveries ++ [.panelChange r.panel old.state new] },
        if -3000 ≤ r.deflection ∧ r.deflection ≤ 3000 then .taken else .takenClamped)) ∧
  ∀ (p : PortNo) (form : List Byte) (s : State) (r : Request) (ps : List Byte)
    (os : List ReadingOutcome), Handed (.postWall p form) s r ps → 1 ≤ byteAt ps 0 →
    byteAt ps 0 ≤ 8 → ps.length = 1 + 7 * byteAt ps 0 →
    os = (s.wallReadings (wallReadingsAt ps 1 (byteAt ps 0))).2 →
    os.length = byteAt ps 0 ∧
    (s.clock.running = false → exec (.postWall p form) s = s.replied r .noTime [] id) ∧
    (s.clock.running = true → exec (.postWall p form) s =
      s.replied r (if ReadingOutcome.takenClamped ∈ os then .okClamped else .ok)
        (enc8 (os.count .taken + os.count .takenClamped) ++
          enc8 (os.length - (os.count .taken + os.count .takenClamped)) ++
          os.flatMap fun o => enc8 o.code)
        fun u => (wallReadingsAt ps 1 (byteAt ps 0)).foldl (fun w x => (w.wallReading x).1) u)
  ) ∧
  (
  (∀ (n : Nat) (s : State) (due : SiteTime) (rest : List Mark) (old : Panel), s.powered = true →
    s.marks = ⟨due, .staleness n⟩ :: rest → due ≤ s.clock.time → 1 ≤ n →
    s.panels[n - 1]? = some old →
    exec (.stalenessExpiry n) s = .next
      (if old.state = .stale then { s with marks := rest }
      else
        { s with
          marks := rest
          panels := s.panels.set (n - 1)
            { old with state := .stale, changes := (old.changes + 1) % 65536 }
          ports := s.ports.raise .panelChange
          deliveries := s.deliveries ++ [.panelChange n old.state .stale] })) ∧
  (∀ (p : PortNo) (form : List Byte) (s : State) (r : Request) (ps : List Byte) (k : Nat),
    Handed (.readPanels p form) s r ps → ps.length = 2 → 1 ≤ byteAt ps 1 → byteAt ps 1 ≤ 8 →
    ((byteAt ps 0 = 0 ∨ s.settings.panelCount < byteAt ps 0) →
      exec (.readPanels p form) s = s.replied r .outOfRange [] id) ∧
    (1 ≤ byteAt ps 0 → byteAt ps 0 ≤ s.settings.panelCount →
      k = min (byteAt ps 1) (s.settings.panelCount + 1 - byteAt ps 0) →
      exec (.readPanels p form) s = s.replied r .ok
        (enc8 k ++ (List.range' (byteAt ps 0) k).flatMap fun n => encPanel n (panelAt s.panels n))
        id)) ∧
  ∀ (n : Nat) (x : Panel), (encPanel n x).length = 15
  )

/-- Settings coming into force reach the panel table: a panel taken out of use becomes STALE without a
reading, a mark, a count or an event; new levels judge each panel in use that is not STALE again, in
order; the rest stays. That panels are judged again, and their changes delivered, in ascending order is
the model's choice (log entry 37). -/
def Obligations.SettingsReachPanels : Prop :=
  ∀ (old : Settings) (s t : State), s.panels.length = 32 → old.panelCount ≤ 32 →
    s.settings.panelCount ≤ 32 → t = s.applyPanelSettings old →
    (∀ (n : Nat) (x : Panel), n < 32 → s.panels[n]? = some x →
      (s.settings.panelCount ≤ n → n < old.panelCount →
        t.panels[n]? = some { x with state := .stale, reading := none }) ∧
      (n < s.settings.panelCount →
        ∀ (d : Int) (time : Nat), x.reading = some (d, time) → x.state ≠ .stale →
        (old.alertLevel ≠ s.settings.alertLevel ∨ old.actionLevel ≠ s.settings.actionLevel) →
        t.panels[n]? = some
          (if x.state = derivedState s.settings d then x
          else { x with
            state := derivedState s.settings d, changes := (x.changes + 1) % 65536 })) ∧
      ((n < s.settings.panelCount → x.state = .stale ∨ x.reading = none ∨
          (old.alertLevel = s.settings.alertLevel ∧ old.actionLevel = s.settings.actionLevel)) →
        (s.settings.panelCount ≤ n → old.panelCount ≤ n) → t.panels[n]? = some x)) ∧
    t.marks = s.marks.filter (fun m => match m.name with
      | .staleness n => n ≤ s.settings.panelCount || old.panelCount < n
      | _ => true) ∧
    (∀ more : List Delivery,
      more = (if old.alertLevel = s.settings.alertLevel ∧ old.actionLevel = s.settings.actionLevel
        then []
        else (List.range s.settings.panelCount).filterMap fun n =>
          s.panels[n]?.bind fun x => x.reading.bind fun r =>
            if x.state = .stale ∨ x.state = derivedState s.settings r.1 then none
            else some (Delivery.panelChange (n + 1) x.state (derivedState s.settings r.1))) →
      t.deliveries = s.deliveries ++ more ∧
      t.ports = if more = [] then s.ports else s.ports.raise .panelChange) ∧
    { t with
      panels := s.panels, marks := s.marks, deliveries := s.deliveries, ports := s.ports } = s

/-! ## The journal and the settings -/

/-- An append ends: the record and its entry programmed and counted; after a record that reads back wrong a
SPOILED entry and one retry; FAULT when an entry or the retry reads back wrong or there is no room; and
the asker is told. The readbacks as operands, and the arrival of the claims and releases in flight
before new settings come into force, are the model's (log entries 5, 9). -/
def Obligations.AppendsComplete : Prop :=
  (∀ (run : AppendRun) (s : State) (a : Append) (j : Journal), s.powered = true → s.noneDue = true →
    s.journal.inFlight = some a →
    ((s.journal.room < a.record.length + 8 ∧ j = s.journal) ∨
      (a.record.length + 8 ≤ s.journal.room ∧ run.record = none ∧
        ∃ bs : List Byte, bs.length = 8 ∧ run.entry = some bs ∧
          bs ≠ entryBytes a.kind s.journal.appendPoint a.record ∧
          j = { s.journal with
            array := (s.journal.array.writeBytes s.journal.appendPoint a.record).writeBytes
              (entryOffset s.journal.count) bs }) ∨
      (a.record.length + 8 ≤ s.journal.room ∧ run.entry = none ∧
        ∃ bs retry : List Byte, bs.length = a.record.length ∧ run.record = some bs ∧
          bs ≠ a.record ∧ retry.length = a.record.length ∧ run.retryRecord = some retry ∧
          retry ≠ a.record ∧
          let next := align16 (s.journal.appendPoint + a.record.length)
          let once := (s.journal.array.writeBytes s.journal.appendPoint bs).writeBytes
            (entryOffset s.journal.count) (entryBytes .spoiled s.journal.appendPoint bs)
          j = { s.journal with
            count := s.journal.count + 1, appendPoint := next
            array := if next + a.record.length + 8 ≤ entryOffset s.journal.count
              then once.writeBytes next retry else once })) →
    exec (.appendCompletion run) s = .next (State.tellAsker a.asker none
      { s with
        journal := { j with state := .fault, inFlight := none }
        ports := s.ports.raise .journalFault })) ∧
  (∀ (run : AppendRun) (s : State) (a : Append) (j : Journal), s.powered = true → s.noneDue = true →
    s.journal.inFlight = some a → a.record.length + 8 ≤ s.journal.room →
    run.retryRecord = none → run.entry = none → run.retryEntry = none →
    ((run.record = none ∧
        j = { s.journal with
          count := s.journal.count + 1
          appendPoint := align16 (s.journal.appendPoint + a.record.length)
          lastCert := if a.kind = .certificate then some s.journal.count else s.journal.lastCert
          array := (s.journal.array.writeBytes s.journal.appendPoint a.record).writeBytes
            (entryOffset s.journal.count)
            (entryBytes a.kind s.journal.appendPoint a.record) }) ∨
      (∃ bs : List Byte, bs.length = a.record.length ∧
        run.record = some bs ∧ bs ≠ a.record ∧
        align16 (s.journal.appendPoint + a.record.length) + a.record.length + 8 ≤
          entryOffset s.journal.count ∧
        let next := align16 (s.journal.appendPoint + a.record.length)
        j = { s.journal with
          count := s.journal.count + 2
          appendPoint := align16 (next + a.record.length)
          lastCert := if a.kind = .certificate then some (s.journal.count + 1)
            else s.journal.lastCert
          array := (((s.journal.array.writeBytes s.journal.appendPoint bs).writeBytes
            (entryOffset s.journal.count)
            (entryBytes .spoiled s.journal.appendPoint bs)).writeBytes next a.record).writeBytes
              (entryOffset (s.journal.count + 1)) (entryBytes a.kind next a.record) })) →
    exec (.appendCompletion run) s = .next (State.tellAsker a.asker (some (j.count - 1))
      { s with
        journal := { j with state := .ready, inFlight := none }
        ports := if entryOffset (j.count - 1) - j.appendPoint < 16384
          then s.ports.raise .journalLow else s.ports })) ∧
  (∀ (s : State) (c : PendingCertificate) (index : Option Nat) (x : Panel),
    s.register.slot = some c → 1 ≤ c.pos.panel → s.panels[c.pos.panel - 1]? = some x →
    State.tellAsker .register index s =
      { s with
        register :=
          { s.register with
            slot := none
            records := s.register.records.map fun a =>
              if a.pos = c.pos ∧ a.state = .recording then
                { a with
                  state := if c.result = .accepted ∨ c.result = .lockoffDeviation then .locked
                    else .failed
                  test := a.test.map fun t => { t with
                    index := index
                    residual := if c.result = .accepted ∨ c.result = .lockoffDeviation
                      then c.residual else t.residual } }
              else a }
        panels := if c.result = .accepted ∨ c.result = .lockoffDeviation then
            s.panels.set (c.pos.panel - 1)
              { x with lockedSum := x.lockedSum + c.residual.getD 0 }
          else s.panels
        ports := if index = none then s.ports else s.ports.raise .recordStored }) ∧
  ∀ (s : State) (p : PortNo),
    State.tellAsker (.commit p) none s = State.answer p .journalFault [] { s with staging := none } ∧
    ((∀ d ∈ s.deliveries, d.toArbiter = false) → s.arrivals = s) ∧
    ∀ (k : Nat) (x : Staging) (u : State), u = s.arrivals → u.staging = some x →
      State.tellAsker (.commit p) (some k) s =
        State.answer p .ok (enc16 k)
          (State.applyPanelSettings u.settings { u with settings := x.image, staging := none })

/-- READ_JOURNAL: BAD_FORM for a wrong length or a count outside 1..120, NO_RECORD at or above the entry
count, OUT_OF_RANGE past the record, otherwise the entry's kind and length with the bytes asked, OK or,
when the record's XOR is not its check byte, CORRUPT. The bytes of a right header, and those past the
array's last offset, are free values (log entries 8, 27). -/
def Obligations.JournalIsRead : Prop :=
  (∀ (p : PortNo) (form : List Byte) (s : State) (r : Request) (ps : List Byte),
    Handed (.readJournal p form) s r ps →
    (ps.length ≠ 5 ∨ byteAt ps 4 = 0 ∨ 120 < byteAt ps 4) →
    exec (.readJournal p form) s = s.replied r .badForm [] id) ∧
  ∀ (p : PortNo) (form : List Byte) (s : State) (r : Request) (ps : List Byte) (e : Entry),
    Handed (.readJournal p form) s r ps → ps.length = 5 → 1 ≤ byteAt ps 4 → byteAt ps 4 ≤ 120 →
    e = s.journal.array.entry (u16At ps 0) →
    (s.journal.count ≤ u16At ps 0 →
      exec (.readJournal p form) s = s.replied r .noRecord [] id) ∧
    (u16At ps 0 < s.journal.count →
      (e.length ≤ u16At ps 2 → exec (.readJournal p form) s = s.replied r .outOfRange [] id) ∧
      (u16At ps 2 < e.length →
        exec (.readJournal p form) s =
          s.replied r
            (if ((List.range' e.start e.length).map s.journal.byte).foldl (· ^^^ ·) 0 = e.check
              then .ok else .corrupt)
            (enc8 e.kind ++ enc16 e.length ++
              (List.range' (e.start + u16At ps 2)
                (min (byteAt ps 4) (e.length - u16At ps 2))).map s.journal.byte) id) ∧
      ∀ a, 32 ≤ a → a < 262144 → s.journal.byte a = s.journal.array.read a)

/-- One pair staged: its value is clamped to its range and to its relation, a related setting follows, and
every other setting and the profiles stay. STAGE_SETTING applies its pairs in order to the image held,
or to a copy of the settings in force; STAGE_PROFILE takes a profile that passes its check into the
image and names the step and condition of one that does not; DROP_STAGING releases the image; all are
refused to a port that is not the holder. The values a STAGE_SETTING reply carries, and the step and
condition named with BAD_PROFILE, are the model's (log entries 17, 35). -/
def Obligations.SettingsAreStaged : Prop :=
  (
  (∀ (c : Settings) (id v w : Nat), 1 ≤ id → id ≤ 43 → w = stagedValue c id v →
    (c.stage id v).get id = w ∧ (c.stage id v).profiles = c.profiles ∧
    w = (let x := max (settingRanges.getD (id - 1) (0, 0)).1
          (min v (settingRanges.getD (id - 1) (0, 0)).2)
        if id = 10 ∨ id = 11 ∨ id = 12 then min x c.capacity
        else if id = 16 then max x (c.alertLevel + 1)
        else if id = 29 then max x (c.refusalPressure + 100)
        else if id = 34 then min x c.jackFs else x) ∧
    ∀ k, 1 ≤ k → k ≤ 43 → k ≠ id → (c.stage id v).get k =
      if id = 1 ∧ k = 34 then min (c.get k) w
      else if id = 9 ∧ (k = 10 ∨ k = 11 ∨ k = 12) then min (c.get k) w
      else if id = 15 ∧ k = 16 then max (c.get k) (w + 1)
      else if id = 27 ∧ k = 29 then max (c.get k) (w + 100)
      else c.get k) ∧
  ∀ (p : PortNo) (form : List Byte) (s : State) (r : Request) (ps : List Byte)
    (pairs : List (Nat × Nat)), Handed (.stageSetting p form) s r ps →
    ps = pairs.flatMap (fun x => enc8 x.1 ++ enc16 x.2) → 1 ≤ pairs.length → pairs.length ≤ 16 →
    (∀ x ∈ pairs, 1 ≤ x.1 ∧ x.1 ≤ 43 ∧ x.2 < 65536) →
    ((∃ x, s.staging = some x ∧ x.holder ≠ p) →
      exec (.stageSetting p form) s = s.replied r .stagingHeld [] id) ∧
    ((∀ x, s.staging = some x → x.holder = p) →
      exec (.stageSetting p form) s =
        s.replied r (if (stagePairs s.image pairs).clamped then .okClamped else .ok)
          ((stagePairs s.image pairs).pairs.flatMap fun x => enc8 x.1 ++ enc16 x.2)
          fun u => { u with staging := some ⟨p, pairs.foldl (fun c x => c.stage x.1 x.2) s.image⟩ })
  ) ∧
  (
  (∀ (p : PortNo) (form : List Byte) (s : State) (r : Request) (ps : List Byte),
    Handed (.stageProfile p form) s r ps → ps.length = 2 + 7 * byteAt ps 1 →
    ((byteAt ps 0 = 0 ∨ 4 < byteAt ps 0) →
      exec (.stageProfile p form) s = s.replied r .outOfRange [] id) ∧
    (1 ≤ byteAt ps 0 → byteAt ps 0 ≤ 4 →
      ((∃ x, s.staging = some x ∧ x.holder ≠ p) →
        exec (.stageProfile p form) s = s.replied r .stagingHeld [] id) ∧
      ((∀ x, s.staging = some x → x.holder = p) →
        (∀ i c, profileFault (stepsAt ps 2 (byteAt ps 1)) = some (i, c) →
          exec (.stageProfile p form) s = s.replied r .badProfile (enc8 i ++ enc8 c) id) ∧
        ∀ steps, stepsAt ps 2 (byteAt ps 1) = steps.map some → profileFault (steps.map some) = none →
          exec (.stageProfile p form) s = s.replied r .ok [] fun u =>
            { u with staging := some ⟨p, match byteAt ps 0 with
              | 1 => { s.image with profile1 := some steps }
              | 2 => { s.image with profile2 := some steps }
              | 3 => { s.image with profile3 := some steps }
              | _ => { s.image with profile4 := some steps }⟩ }))) ∧
  ∀ (p : PortNo) (form : List Byte) (s : State) (r : Request),
    Handed (.dropStaging p form) s r [] →
    ((∃ x, s.staging = some x ∧ x.holder ≠ p) →
      exec (.dropStaging p form) s = s.replied r .stagingHeld [] id) ∧
    ((∀ x, s.staging = some x → x.holder = p) →
      exec (.dropStaging p form) s = s.replied r .ok [] fun u => { u with staging := none })
  )

/-- A profile passes its check just when it has 3..16 steps in range, its DATUM step is step 1 with a hold
of at least 60 s, it has one PEAK step and, last and with the target of step 1, one RETURN step, at most
four creep steps other than the DATUM step, and creep and extended holds of the lengths asked. -/
def Obligations.ProfileCheckIsExact : Prop :=
  ∀ steps : List Step, profileFault (steps.map some) = none ↔
    (3 ≤ steps.length ∧ steps.length ≤ 16 ∧
      (∀ st ∈ steps, st.target ≤ 1600 ∧ st.hold ≤ 7200 ∧
        (st.ext = 0 ∨ (20 ≤ st.ext ∧ st.ext ≤ 72000))) ∧
      (∀ i st, steps[i]? = some st → (st.role = .datum ↔ i = 0)) ∧
      (∀ st, steps[0]? = some st → 60 ≤ st.hold) ∧
      (steps.countP fun st => st.role = .peak) = 1 ∧
      (∀ i st, steps[i]? = some st → (st.role = .ret ↔ i + 1 = steps.length)) ∧
      (steps.getLast?.map Step.target = steps.head?.map Step.target) ∧
      (steps.countP fun st => st.creep) ≤ 4 ∧
      (∀ st ∈ steps, st.creep = true → st.role ≠ .datum ∧ st.hold % 10 = 0 ∧ 60 ≤ st.hold) ∧
      ∀ st ∈ steps, st.ext ≠ 0 → st.creep = true ∧ st.ext % 10 = 0 ∧ st.hold < st.ext ∧
        st.ext / 10 ≤ st.hold)

/-- COMMIT_SETTINGS: refused without an image, to a port that is not its holder, while an engine runs or an
append is in flight, with an anchor above the new panel count, in FAULT, and without room; accepted it
asks the append and leaves the mailbox BUSY. The length given with JOURNAL_FULL is the model's choice
(log entry 21). -/
def Obligations.CommitsAreDecided : Prop :=
  ∀ (p : PortNo) (form : List Byte) (s : State) (r : Request),
    Handed (.commitSettings p form) s r [] →
    (s.staging = none → exec (.commitSettings p form) s = s.replied r .wrongState [] id) ∧
    ∀ x, s.staging = some x →
      (x.holder ≠ p → exec (.commitSettings p form) s = s.replied r .stagingHeld [] id) ∧
      (x.holder = p →
        ((s.winch.state ≠ .idle ∨ s.grout.state ≠ .idle ∨ s.stress.state ≠ .idle ∨
            s.journal.state = .appending) →
          exec (.commitSettings p form) s = s.replied r .notIdle [] id) ∧
        (s.winch.state = .idle → s.grout.state = .idle → s.stress.state = .idle →
          s.journal.state ≠ .appending →
          (∀ (before after : List Anchor) (a : Anchor), s.register.records = before ++ a :: after →
            (∀ b ∈ before, b.pos.panel ≤ x.image.panelCount) → x.image.panelCount < a.pos.panel →
            exec (.commitSettings p form) s = s.replied r .badSetting
              (enc8 a.pos.panel ++ enc8 a.pos.tier ++ enc8 a.pos.slot) id) ∧
          ((∀ a ∈ s.register.records, a.pos.panel ≤ x.image.panelCount) →
            (s.journal.state = .fault →
              exec (.commitSettings p form) s = s.replied r .journalFault [] id) ∧
            (s.journal.state = .ready →
              (s.journal.room < settingsLength x.image + 23 →
                exec (.commitSettings p form) s = s.replied r .journalFull
                  (enc32 s.journal.room ++ enc16 (settingsLength x.image + 23)) id) ∧
              (settingsLength x.image + 23 ≤ s.journal.room →
                exec (.commitSettings p form) s = .next
                  { s.taken r.port r.code r.form with
                    journal := { s.journal with
                      state := .appending
                      inFlight := some ⟨.settings, encSettings x.image, .commit p⟩ } })))))

/-- A settings record written is read back as the settings it was written from, whatever the values of its
43 settings and its profiles, when each fits its field. -/
def Obligations.SettingsRecordsReadBack : Prop :=
  ∀ c : Settings, (∀ v ∈ c.values, v < 65536) →
    (∀ steps, some steps ∈ c.profiles → steps.length ≤ 255 ∧ ∀ st ∈ steps,
      st.target < 65536 ∧ st.hold < 65536 ∧ st.ext % 10 = 0 ∧ st.ext < 655360) →
    (encSettings c).length = settingsLength c ∧ decSettings (encSettings c) = some c

/-! ## Start-up and power -/

/-- START_UP: the clock keeps its time when its validity marker is there and is UNSET otherwise, the
register keeps its records when its format marker is there and is empty otherwise, the latch follows the
trip line, the outputs are off, the ports take their straps' roles, and the rest is at its start-up
values, the journal SCANNING over the array it has; POWER_LOSS leaves a part without supply that keeps
clock, register and array. The header as a value, the empty journal before the scan, the output's period
of 200 Hz, the state of a part without main supply, the flag of the domain's supply and the byte 00h at
80h of an EMPTY mailbox are the model's (log entries 7, 8, 11, 12, 15, 30). -/
def Obligations.StartUpAndPowerLoss : Prop :=
  (∀ (pins : StartPins) (phases : Nat) (run : AppendRun) (s : State), s.powered = false →
    exec (.startUp .line pins phases run) s = .next s) ∧
  (∀ (cause : StartCause) (pins : StartPins) (phases : Nat) (run : AppendRun) (s : State),
    s.noneDue = true → (s.powered = true ∨ cause = .power) →
    ∃ (array : Memory) (header : Header),
      ((s.powered = false ∨ phases = 0 ∨
          (s.journal.state ≠ .scanning ∧ s.journal.inFlight = none)) →
        array = s.journal.array ∧ header = s.journal.header) ∧
      (s.journal.state ≠ .scanning → header = s.journal.header) ∧
      exec (.startUp cause pins phases run) s = .next
        { powered := true, ready := false, startCause := cause
          clock := if s.clock.marker then { s.clock with supplied := true }
            else ⟨false, 0, false, true, false⟩
          marks := [], meas := .atStartUp pins.drum pins.ram
          supply := ⟨⟨.none, 0⟩, ⟨.none, 0⟩, ⟨.none, 0⟩, [], pins.tripLow, pins.tripLow⟩
          outputs := ⟨⟨0, 0, 200⟩, ⟨0, 0, 200⟩, ⟨0, 0, 200⟩, ⟨0, 0, 200⟩⟩
          register := if s.register.marker then s.register else ⟨true, [], none⟩
          panels := List.replicate 32 ⟨.stale, none, 0, 0⟩, batches := []
          winch := .atStartUp, grout := .atStartUp, stress := .atStartUp
          journal := ⟨array, header, .scanning, 0, 32, none, none⟩
          settings := .default, staging := none
          ports := ⟨.atStartUp (roleOf pins.lp0) (!s.clock.marker),
            .atStartUp (roleOf pins.lp1) (!s.clock.marker),
            .atStartUp (roleOf pins.lp2) (!s.clock.marker),
            .atStartUp (roleOf pins.lp3) (!s.clock.marker)⟩
          deliveries := [], pending := s.pending }) ∧
  (∀ (role : Role) (unset : Bool), role ≠ .disabled →
    Port.atStartUp role unset =
      ⟨role, .empty, List.replicate 256 0, if unset then 0xC000 else 0x8000, 0xC00F, none⟩) ∧
  ∀ (phases : Nat) (run : AppendRun) (s : State), s.powered = true → s.noneDue = true →
    ∃ t, exec (.powerLoss phases run) s = .next t ∧ t.powered = false ∧ t.clock = s.clock ∧
      t.register = s.register ∧ t.outputs.isOff = true ∧ t.marks = [] ∧ t.deliveries = [] ∧
      ((phases = 0 ∨ (s.journal.state ≠ .scanning ∧ s.journal.inFlight = none)) →
        t.journal.array = s.journal.array ∧ t.journal.header = s.journal.header)

/-- START_UP_SCAN_DONE puts every record left in an operation into a state to go on from, sums each panel's
LOCKED residuals, empties the slot when nothing is RECORDING, and takes requests; nothing else changes
but the journal, the settings it found and the events it raises; a RECORDING anchor is settled from the
slot. That the command does nothing outside SCANNING, that scan, fix-up, sums, settled slot and
readiness are one change, and the order of the RECORDING cases, are the model's (log entries 6, 7, 24). -/
def Obligations.StartUpWorkIsDone : Prop :=
  (∀ (run : ScanRun) (s : State), s.noneDue = true → (s.powered = false ∨ s.ready = true ∨
      s.journal.state ≠ .scanning) → exec (.startUpScanDone run) s = .next s) ∧
  (∀ (run : ScanRun) (s : State) (time : Option Nat), s.powered = true → s.noneDue = true →
    s.ready = false →
    s.journal.state = .scanning →
    (∀ a ∈ s.register.records, a.state ≠ .recording ∧ a.returnState ≠ .recording) →
    time = (if s.clock.running then some (s.clock.time / 1024) else none) →
    ∃ t, exec (.startUpScanDone run) s = .next t ∧ t.ready = true ∧
      t.journal = (s.journal.startScan run).1 ∧ t.settings = t.journal.foundSettings ∧
      (t.journal.state = .fault → t.settings = .default) ∧
      t.register =
        ⟨s.register.marker, s.register.records.map (fun a =>
          match a.state, a.work.map Work.op with
          | .placing, _ => { a with state := .declared, work := none, interrupted := true }
          | .grouting, some .groutPrimary =>
            { a with
              state := .short, work := none, interrupted := true
              grout := some { a.groutPart with
                endTime := time, primary := none, outcome := .incomplete } }
          | .grouting, _ =>
            { a with
              state := a.returnState, work := none, interrupted := true
              grout := some { a.groutPart with
                endTime := if s.clock.running then time else a.groutPart.endTime
                post := none, outcome := .incomplete, postCount := a.groutPart.postCount + 1 } }
          | .testing, _ =>
            { a with
              state := a.returnState, work := none, interrupted := true
              test := some { a.testPart with
                count := a.testPart.count + 1, last := .abortedPower
                creep := none, lApp := none } }
          | _, _ => a), none⟩ ∧
      (∀ (n : Nat) (x : Panel), s.panels[n]? = some x → t.panels[n]? = some { x with
        lockedSum := ((t.register.records.filter fun a =>
          a.state == .locked && a.pos.panel == n + 1).map fun a =>
            (a.testPart.residual).getD 0).sum }) ∧
      t.ports = (if t.journal.state = .fault then s.ports.raise .journalFault
        else if (s.journal.startScan run).2 = true then s.ports.raise .journalLow else s.ports) ∧
      { t with
        ready := s.ready, register := s.register, panels := s.panels, journal := s.journal
        settings := s.settings, ports := s.ports } = s) ∧
  ∀ (run : ScanRun) (s : State) (a : Anchor) (c : PendingCertificate) (j : Journal),
    s.powered = true → s.noneDue = true → s.ready = false → s.journal.state = .scanning →
    a ∈ s.register.records → a.state = .recording → a.pos = c.pos → s.register.slot = some c →
    j = (s.journal.startScan run).1 →
    ∃ t, exec (.startUpScanDone run) s = .next t ∧ t.ready = true ∧
      (∀ k, j.lastCert = some k → j.names (j.array.entry k) c = true →
        t.journal = j ∧ t.register.slot = none ∧ a.certified c (some k) ∈ t.register.records) ∧
      ((∀ k, j.lastCert = some k → j.names (j.array.entry k) c = false) →
        (j.state = .fault →
          t.journal = j ∧ t.register.slot = none ∧ a.certified c none ∈ t.register.records) ∧
        (j.state = .ready →
          t.journal =
            { j with state := .appending, inFlight := some ⟨.certificate, c.record, .register⟩ } ∧
          t.register.slot = some c ∧ a ∈ t.register.records))

/-- The start-up scan: the entries are counted up to the first slot without a marker; a wrong header, and a
slot that is neither marked nor blank, are a FAULT; the append point is past every counted range; the
last CERTIFICATE entry is the highest-numbered of its kind; a blank free area leaves the journal READY;
a free area that is not blank is covered by a SPOILED entry; a READY journal finds the settings of its
last good SETTINGS entry, or the defaults. The header as a value, the readbacks as operands, that a
SETTINGS entry that matches its check byte and does not decode is passed over, and that the append point
is never below 32, are the model's (log entries 8, 9, 25, 42). -/
def Obligations.StartUpScan : Prop :=
  (∀ m : Memory, (∀ k, k < m.entryCount → m.read (entryOffset k) = 0xA5) ∧
    (m.entryCount < 32764 → m.read (entryOffset m.entryCount) ≠ 0xA5)) ∧
  (∀ (m : Memory) (n k : Nat), k < n →
    (m.entry k).start + (m.entry k).length ≤ m.scanPoint n ∧ 32 ≤ m.scanPoint n) ∧
  (∀ (m : Memory) (n : Nat), m.scanPoint n % 16 = 0 ∧ (m.scanPoint n = 32 ∨
    ∃ k, k < n ∧ m.scanPoint n < (m.entry k).start + (m.entry k).length + 16)) ∧
  (∀ (m : Memory) (n k : Nat), m.lastCertificate n = some k ↔
    k < n ∧ (m.entry k).kind = EntryKind.certificate.code ∧
      ∀ i, k < i → i < n → (m.entry i).kind ≠ EntryKind.certificate.code) ∧
  (∀ (run : ScanRun) (j : Journal),
    (∀ bs : List Byte, j.header = .absent → run.header = some bs → bs.length = 32 →
      bs ≠ headerBytes →
      j.startScan run =
        ({ j with
          header := if bs = List.replicate 32 0 then .absent else .other bs
          state := .fault, count := 0, appendPoint := 32, lastCert := none }, false)) ∧
    ∀ bs : List Byte, j.header = .other bs → bs ≠ headerBytes → Config.headerHolds bs = false →
      j.startScan run =
        ({ j with state := .fault, count := 0, appendPoint := 32, lastCert := none }, false)) ∧
  ∀ (run : ScanRun) (j seen : Journal) (n : Nat) (h : Header),
    ((h = .right ∧ (j.header = .right ∨ (j.header = .absent ∧
        (run.header = none ∨ run.header = some headerBytes)))) ∨
      ∃ bs, h = .other bs ∧ j.header = .other bs ∧
        (bs = headerBytes ∨ Config.headerHolds bs = true)) →
    n = j.array.entryCount →
    seen = { j with
      header := h, count := n, appendPoint := j.array.scanPoint n
      lastCert := j.array.lastCertificate n } →
    (∀ c : Settings, ((∃ k, k < n ∧ seen.settingsOf (j.array.entry k) = some c ∧
          ∀ i, k < i → i < n → seen.settingsOf (j.array.entry i) = none) ∨
        (c = .default ∧ ∀ k, k < n → seen.settingsOf (j.array.entry k) = none)) →
      (j.startScan run).1.state = .ready → (j.startScan run).1.foundSettings = c) ∧
    ((j.startScan run).1.state = .fault → (j.startScan run).1.foundSettings = .default) ∧
    (j.array.slot n ≠ List.replicate 8 0 →
      j.startScan run = ({ seen with state := .fault }, false)) ∧
    (j.array.slot n = List.replicate 8 0 →
      ((∀ c ∈ j.array, ¬ (seen.appendPoint ≤ c.1 ∧ c.1 < entryOffset n)) →
        j.startScan run = ({ seen with state := .ready }, false)) ∧
      ∀ (last stop : Nat) (v : Byte) (entry : List Byte), (last, v) ∈ j.array →
        seen.appendPoint ≤ last → last < entryOffset n →
        (∀ c ∈ j.array, c.1 < entryOffset n → c.1 ≤ last) → stop = (last / 16 + 1) * 16 →
        entry = entryBytes .spoiled seen.appendPoint
          (j.array.readBytes seen.appendPoint (stop - seen.appendPoint)) →
        (entryOffset n < stop → j.startScan run = ({ seen with state := .fault }, false)) ∧
        (stop ≤ entryOffset n →
          (run.spoiledEntry = none → j.startScan run =
            ({ seen with
              state := .ready, count := n + 1, appendPoint := stop
              array := j.array.writeBytes (entryOffset n) entry },
              decide (entryOffset n - stop < 16384))) ∧
          ∀ bs : List Byte, run.spoiledEntry = some bs → bs.length = 8 → bs ≠ entry →
            j.startScan run =
              ({ seen with
                state := .fault, array := j.array.writeBytes (entryOffset n) bs }, false)))

/-! ## What every step keeps -/

/-- The properties below hold right after reset. -/
def Obligations.ResetMeetsInvariants : Prop :=
  State.reset.tripSafe = true ∧ State.reset.outputs.sound = true ∧
    State.reset.supply.granted ≤ State.reset.settings.capacity ∧
    marksSound State.reset.marks = true ∧ panelsSound State.reset.panels = true ∧
    State.reset.register.sound = true ∧ State.reset.register.testsSound = true ∧
    State.reset.ports.sound = true ∧ State.reset.journal.wellKept = true ∧
    State.reset.settingsSound = true ∧ State.reset.journal.array.wf = true

/-- While the trip is latched no flow is granted, no claim waits and every output is off; duties stay within
0..1000, an output set to 0 is not driven, and the jack is never driven both ways: every step keeps
this. The flows granted never exceed the pack's capacity: every step keeps that; the two commands that
bring other settings into force keep it where nothing is held then, as R58 states: a START_UP_SCAN_DONE
before any grant, and an APPEND_COMPLETION when the claims and releases in flight leave no flow granted.
That the claims and releases in flight arrive before new settings come into force is the model's (log
entry 5). -/
def Obligations.SupplySafetyIsKept : Prop :=
  (
  ∀ s t : State, s.tripSafe = true → s.outputs.sound = true → step s = .next t →
    t.tripSafe = true ∧ t.outputs.sound = true
  ) ∧
  (
  ∀ (c : Instr) (rest : List Instr) (s t : State), s.pending = c :: rest →
    s.supply.granted ≤ s.settings.capacity → step s = .next t →
    ((∀ run, c ≠ .appendCompletion run) → (∀ run, c ≠ .startUpScanDone run) →
      t.supply.granted ≤ t.settings.capacity) ∧
    (∀ run, c = .startUpScanDone run → s.supply.granted = 0 →
      t.supply.granted ≤ t.settings.capacity) ∧
    ∀ run, c = .appendCompletion run → s.noneDue = true → s.arrivals.supply.granted = 0 →
      t.supply.granted ≤ t.settings.capacity
  )

/-- The mark list stays in order of due time with one mark of a name, and every reading in the panel table
stays within -3000..3000: every step keeps this. -/
def Obligations.MarksAndPanelsAreKept : Prop :=
  (∀ s t : State, marksSound s.marks = true → step s = .next t → marksSound t.marks = true) ∧
  ∀ s t : State, panelsSound s.panels = true → step s = .next t → panelsSound t.panels = true

/-- The register keeps its order, its valid positions and its bound of 512 records, and no test count passes
4; a LOCKED record is never changed while the register keeps its format marker. -/
def Obligations.RegisterIsKept : Prop :=
  (∀ s t : State, s.register.sound = true → step s = .next t → t.register.sound = true) ∧
  (∀ s t : State, s.register.sound = true → s.register.testsSound = true → step s = .next t →
    t.register.testsSound = true) ∧
  ∀ s t : State, s.register.sound = true → s.register.marker = true → step s = .next t →
    t.register.marker = true ∧
    ∀ a ∈ s.register.records, a.state = .locked → a ∈ t.register.records

/-- Every mailbox keeps its 256 bytes and in BUSY and DONE shows its state at 80h, and a DISABLED port holds
no flags: every step keeps this. What an EMPTY mailbox reads there is left open (log entry 15). -/
def Obligations.PortsAreKept : Prop :=
  ∀ s t : State, s.ports.sound = true → step s = .next t → t.ports.sound = true

/-- The journal's free area stays blank and no byte once programmed is programmed again: every step keeps
the one and does the other. -/
def Obligations.JournalIsAppendOnly : Prop :=
  ∀ s t : State, s.journal.wellKept = true → step s = .next t →
    t.journal.wellKept = true ∧
    ∀ x, s.journal.array.read x ≠ 0 → t.journal.array.read x = s.journal.array.read x

/-- The settings in force and the staging image stay within their ranges and relations: every step keeps
this but the start-up scan, which takes the settings the journal holds. -/
def Obligations.SettingsStayInRange : Prop :=
  ∀ (c : Instr) (rest : List Instr) (s t : State), s.pending = c :: rest →
    (∀ run, c ≠ .startUpScanDone run) → s.settingsSound = true → step s = .next t →
    t.settingsSound = true
end

