-- ==== Sys2Proof/Laws/Clock.lean ====
section
/-! SUPPORT. The site clock: one lemma per field per update, and all that a tick can do. -/

namespace Sys2Proof.Machine

@[simp] theorem Clock.moveTo_running (t : SiteTime) (c : Clock) :
    (c.moveTo t).running = c.running := rfl
@[simp] theorem Clock.moveTo_time (t : SiteTime) (c : Clock) : (c.moveTo t).time = t := rfl
@[simp] theorem Clock.moveTo_marker (t : SiteTime) (c : Clock) : (c.moveTo t).marker = c.marker := rfl
@[simp] theorem Clock.moveTo_supplied (t : SiteTime) (c : Clock) :
    (c.moveTo t).supplied = c.supplied := rfl
@[simp] theorem Clock.moveTo_stopped (t : SiteTime) (c : Clock) :
    (c.moveTo t).stopped = (c.stopped || decide (Config.maxTime ≤ t)) := rfl

@[simp] theorem Clock.set_running (n : Nat) (c : Clock) : (c.set n).running = true := rfl
@[simp] theorem Clock.set_time (n : Nat) (c : Clock) : (c.set n).time = n * 1024 := rfl
@[simp] theorem Clock.set_marker (n : Nat) (c : Clock) : (c.set n).marker = true := rfl
@[simp] theorem Clock.set_supplied (n : Nat) (c : Clock) : (c.set n).supplied = c.supplied := rfl
@[simp] theorem Clock.set_stopped (n : Nat) (c : Clock) : (c.set n).stopped = false := rfl

/-- A tick leaves a clock that does not count as it is; it moves one that counts by 1/1024 s, up to the
last value, where it stops it. -/
theorem Clock.tick_cases (c : Clock) :
    (c.tick = c ∧ (c.running = false ∨ c.supplied = false ∨ c.stopped = true)) ∨
    (c.running = true ∧ c.supplied = true ∧ c.stopped = false ∧
      c.tick = c.moveTo (min (c.time + 1) Config.maxTime)) := by
  unfold Clock.tick
  split
  next h =>
    obtain ⟨⟨hr, hs⟩, ht⟩ : (c.running = true ∧ c.supplied = true) ∧ c.stopped = false := by
      simpa using h
    exact .inr ⟨hr, hs, ht, by unfold clampTime; rw [Nat.min_comm]⟩
  next h =>
    refine .inl ⟨rfl, ?_⟩
    cases hr : c.running <;> cases hs : c.supplied <;> simp_all

end Sys2Proof.Machine
end

