-- ==== Sys2Proof/Laws/Header.lean ====
section
/-! SUPPORT. The journal's header: what its programming leaves and when the start-up check passes. -/

namespace Sys2Proof.Machine

@[simp] theorem headerBytes_length : headerBytes.length = 32 := by simp [headerBytes]

/-- The bytes that the journal writes are a right header. -/
@[simp] theorem Header.ofBytes_headerBytes : Header.ofBytes headerBytes = .right := if_pos rfl

@[simp] theorem Header.left_none : Header.left none = .right := rfl

/-- A readback equal to what was programmed leaves a right header. -/
@[simp] theorem Header.left_headerBytes : Header.left (some headerBytes) = .right := by
  have h : fitBytes 32 headerBytes = headerBytes := by
    rw [fitBytes, List.take_append_of_le_length (by simp)]
    exact List.take_of_length_le (by simp)
  rw [Header.left, h, Header.ofBytes_headerBytes]

/-- A programming leaves a right header exactly when it reads back as programmed. -/
theorem Header.left_eq_right {bs : List Byte} (h : bs.length = 32) :
    Header.left (some bs) = .right ↔ bs = headerBytes := by
  have hf : fitBytes 32 bs = bs := by
    rw [fitBytes, List.take_append_of_le_length (Nat.le_of_eq h.symm)]
    exact List.take_of_length_le (Nat.le_of_eq h)
  rw [Header.left, hf, Header.ofBytes]
  by_cases hb : bs = headerBytes
  · simp [hb]
  · rw [if_neg hb]
    split <;> simp [hb]

/-- All that the header check can do. -/
theorem Journal.checkHeader_cases (readback : Option (List Byte)) (j : Journal) :
    (j.header = .absent ∧ j.checkHeader readback =
      ({ j with header := .left readback }, decide (Header.left readback = .right))) ∨
    (j.header ≠ .absent ∧ j.checkHeader readback = (j, j.header.isRight)) := by
  by_cases h : j.header = .absent
  · exact .inl ⟨h, if_pos h⟩
  · exact .inr ⟨h, if_neg h⟩

end Sys2Proof.Machine
end

