-- ==== Sys2Proof/Laws/Memory.lean ====
section
/-! SUPPORT. The laws of the journal array's bytes: read after write, and that every operation keeps
the canonical form. -/

namespace Sys2Proof.Machine

theorem Memory.wfFrom_lower {m : Memory} {lo lo' : Nat} (h : lo' ≤ lo) (hw : m.wfFrom lo = true) :
    m.wfFrom lo' = true := by
  cases m with
  | nil => rfl
  | cons c rest =>
    obtain ⟨a, v⟩ := c
    simp only [Memory.wfFrom, Bool.and_eq_true, decide_eq_true_eq] at hw ⊢
    exact ⟨⟨⟨by omega, hw.1.1.2⟩, hw.1.2⟩, hw.2⟩

/-- Below its bound a canonical array reads blank. -/
theorem Memory.read_below {m : Memory} {lo a : Nat} (hw : m.wfFrom lo = true) (h : a < lo) :
    m.read a = 0 := by
  induction m generalizing lo with
  | nil => rfl
  | cons c rest ih =>
    obtain ⟨b, v⟩ := c
    simp only [Memory.wfFrom, Bool.and_eq_true, decide_eq_true_eq] at hw
    simp only [Memory.read]
    rw [if_neg (by omega)]
    exact ih hw.2 (by omega)

/-- A byte written is read back, and every other byte reads as before. -/
theorem Memory.read_write {m : Memory} {lo : Nat} (hw : m.wfFrom lo = true) (a : Nat) (v : Byte)
    (b : Nat) : (m.write a v).read b = if b = a then v else m.read b := by
  induction m generalizing lo with
  | nil =>
    by_cases hb : b = a
    · subst hb
      by_cases hv : v = 0
      · simp [Memory.write, Memory.read, hv]
      · simp only [Memory.write, if_neg hv, Memory.read, if_true]
    · by_cases hv : v = 0
      · simp [Memory.write, Memory.read, hv]
      · simp only [Memory.write, if_neg hv, Memory.read, if_neg hb, if_neg (Ne.symm hb)]
  | cons c rest ih =>
    obtain ⟨x, w⟩ := c
    simp only [Memory.wfFrom, Bool.and_eq_true, decide_eq_true_eq] at hw
    have below : ∀ y, y < x + 1 → Memory.read rest y = 0 := fun y hy => Memory.read_below hw.2 hy
    simp only [Memory.write]
    by_cases h1 : a < x
    · rw [if_pos h1]
      by_cases hv : v = 0
      · rw [if_pos hv]
        by_cases hb : b = a
        · subst hb; simp only [Memory.read, if_pos]; rw [if_neg (by omega), below _ (by omega), hv]
        · rw [if_neg hb]
      · rw [if_neg hv]
        by_cases hb : b = a
        · subst hb; simp [Memory.read]
        · simp only [Memory.read]; rw [if_neg (fun h => hb h.symm), if_neg hb]
    · rw [if_neg h1]
      by_cases h2 : a = x
      · subst h2
        rw [if_pos rfl]
        by_cases hv : v = 0
        · rw [if_pos hv]
          by_cases hb : b = a
          · subst hb; rw [if_pos rfl, below _ (by omega), hv]
          · simp only [Memory.read]; rw [if_neg hb, if_neg (fun h => hb h.symm)]
        · rw [if_neg hv]
          by_cases hb : b = a
          · subst hb; simp [Memory.read]
          · simp only [Memory.read]
            rw [if_neg (fun h => hb h.symm), if_neg hb, if_neg (fun h => hb h.symm)]
      · rw [if_neg h2]
        simp only [Memory.read]
        by_cases hx : x = b
        · rw [if_pos hx, if_pos hx, if_neg (by omega)]
        · rw [if_neg hx, if_neg hx]; exact ih hw.2

/-- A write within the array keeps the canonical form. -/
theorem Memory.wfFrom_write {m : Memory} {lo : Nat} (hw : m.wfFrom lo = true) {a : Nat}
    (hl : lo ≤ a) (ha : a < Config.arraySize) (v : Byte) : (m.write a v).wfFrom lo = true := by
  induction m generalizing lo with
  | nil => by_cases hv : v = 0 <;> simp_all [Memory.write, Memory.wfFrom]
  | cons c rest ih =>
    obtain ⟨x, w⟩ := c
    have hw' := hw
    simp only [Memory.wfFrom, Bool.and_eq_true, decide_eq_true_eq] at hw
    simp only [Memory.write]
    by_cases h1 : a < x
    · rw [if_pos h1]
      by_cases hv : v = 0
      · rw [if_pos hv]; exact hw'
      · rw [if_neg hv]
        simp only [Memory.wfFrom, Bool.and_eq_true, decide_eq_true_eq]
        exact ⟨⟨⟨hl, ha⟩, by simpa using hv⟩, ⟨⟨by omega, hw.1.1.2⟩, hw.1.2⟩, hw.2⟩
    · rw [if_neg h1]
      by_cases h2 : a = x
      · subst h2
        rw [if_pos rfl]
        by_cases hv : v = 0
        · rw [if_pos hv]; exact Memory.wfFrom_lower (by omega) hw.2
        · rw [if_neg hv]
          simp only [Memory.wfFrom, Bool.and_eq_true, decide_eq_true_eq]
          exact ⟨⟨⟨hl, ha⟩, by simpa using hv⟩, hw.2⟩
      · rw [if_neg h2]
        simp only [Memory.wfFrom, Bool.and_eq_true, decide_eq_true_eq]
        exact ⟨⟨⟨hw.1.1.1, hw.1.1.2⟩, hw.1.2⟩, ih hw.2 (by omega)⟩

theorem Memory.wf_write {m : Memory} (hw : m.wf = true) {a : Nat} (ha : a < Config.arraySize)
    (v : Byte) : (m.write a v).wf = true :=
  Memory.wfFrom_write hw (Nat.zero_le a) ha v

/-- Bytes written within the array keep the canonical form. -/
theorem Memory.wf_writeBytes {m : Memory} (hw : m.wf = true) (bs : List Byte) {a : Nat}
    (ha : a + bs.length ≤ Config.arraySize) : (m.writeBytes a bs).wf = true := by
  induction bs generalizing m a with
  | nil => exact hw
  | cons v vs ih =>
    simp only [List.length_cons] at ha
    simp only [Memory.writeBytes]
    exact ih (Memory.wf_write hw (by omega) v) (by omega)

/-- Outside the bytes written every byte reads as before; inside, the byte written is read. -/
theorem Memory.read_writeBytes {m : Memory} (hw : m.wf = true) (bs : List Byte) {a : Nat}
    (ha : a + bs.length ≤ Config.arraySize) (b : Nat) :
    (m.writeBytes a bs).read b =
      if a ≤ b ∧ b < a + bs.length then bs.getD (b - a) 0 else m.read b := by
  induction bs generalizing m a with
  | nil => simp [Memory.writeBytes]
  | cons v vs ih =>
    simp only [List.length_cons] at ha ⊢
    simp only [Memory.writeBytes]
    rw [ih (Memory.wf_write hw (by omega) v) (by omega), Memory.read_write hw]
    by_cases h1 : b = a
    · subst h1
      rw [if_neg (by omega), if_pos rfl, if_pos (by omega)]; simp
    · by_cases h2 : a + 1 ≤ b ∧ b < a + 1 + vs.length
      · rw [if_pos h2, if_pos (by omega)]
        have e : b - a = (b - (a + 1)) + 1 := by omega
        rw [e]; simp
      · rw [if_neg h2, if_neg h1, if_neg (by omega)]

/-- So many bytes are read as many. -/
@[simp] theorem Memory.readBytes_length (m : Memory) (a n : Nat) : (m.readBytes a n).length = n := by
  induction n generalizing a with
  | zero => rfl
  | succ n ih => simp [Memory.readBytes, ih]

@[simp] theorem fitBytes_length (n : Nat) (bs : List Byte) : (fitBytes n bs).length = n := by
  simp [fitBytes]

end Sys2Proof.Machine
end

