-- ==== Sys2Proof/Laws/State.lean ====
section
/-! SUPPORT. The fields of State that each shared operation leaves as they were, one lemma for each
field and operation. -/

namespace Sys2Proof.Machine
/-! ## State.raise -/

@[simp] theorem State.raise_powered (e : Event) (s : State) : (s.raise e).powered = s.powered := rfl
@[simp] theorem State.raise_ready (e : Event) (s : State) : (s.raise e).ready = s.ready := rfl
@[simp] theorem State.raise_startCause (e : Event) (s : State) : (s.raise e).startCause = s.startCause := rfl
@[simp] theorem State.raise_clock (e : Event) (s : State) : (s.raise e).clock = s.clock := rfl
@[simp] theorem State.raise_marks (e : Event) (s : State) : (s.raise e).marks = s.marks := rfl
@[simp] theorem State.raise_meas (e : Event) (s : State) : (s.raise e).meas = s.meas := rfl
@[simp] theorem State.raise_supply (e : Event) (s : State) : (s.raise e).supply = s.supply := rfl
@[simp] theorem State.raise_outputs (e : Event) (s : State) : (s.raise e).outputs = s.outputs := rfl
@[simp] theorem State.raise_register (e : Event) (s : State) : (s.raise e).register = s.register := rfl
@[simp] theorem State.raise_panels (e : Event) (s : State) : (s.raise e).panels = s.panels := rfl
@[simp] theorem State.raise_batches (e : Event) (s : State) : (s.raise e).batches = s.batches := rfl
@[simp] theorem State.raise_winch (e : Event) (s : State) : (s.raise e).winch = s.winch := rfl
@[simp] theorem State.raise_grout (e : Event) (s : State) : (s.raise e).grout = s.grout := rfl
@[simp] theorem State.raise_stress (e : Event) (s : State) : (s.raise e).stress = s.stress := rfl
@[simp] theorem State.raise_journal (e : Event) (s : State) : (s.raise e).journal = s.journal := rfl
@[simp] theorem State.raise_settings (e : Event) (s : State) : (s.raise e).settings = s.settings := rfl
@[simp] theorem State.raise_staging (e : Event) (s : State) : (s.raise e).staging = s.staging := rfl
@[simp] theorem State.raise_deliveries (e : Event) (s : State) : (s.raise e).deliveries = s.deliveries := rfl
@[simp] theorem State.raise_pending (e : Event) (s : State) : (s.raise e).pending = s.pending := rfl

/-! ## State.modifyPort -/

@[simp] theorem State.modifyPort_powered (p : PortNo) (f : Port → Port) (s : State) : (s.modifyPort p f).powered = s.powered := rfl
@[simp] theorem State.modifyPort_ready (p : PortNo) (f : Port → Port) (s : State) : (s.modifyPort p f).ready = s.ready := rfl
@[simp] theorem State.modifyPort_startCause (p : PortNo) (f : Port → Port) (s : State) : (s.modifyPort p f).startCause = s.startCause := rfl
@[simp] theorem State.modifyPort_clock (p : PortNo) (f : Port → Port) (s : State) : (s.modifyPort p f).clock = s.clock := rfl
@[simp] theorem State.modifyPort_marks (p : PortNo) (f : Port → Port) (s : State) : (s.modifyPort p f).marks = s.marks := rfl
@[simp] theorem State.modifyPort_meas (p : PortNo) (f : Port → Port) (s : State) : (s.modifyPort p f).meas = s.meas := rfl
@[simp] theorem State.modifyPort_supply (p : PortNo) (f : Port → Port) (s : State) : (s.modifyPort p f).supply = s.supply := rfl
@[simp] theorem State.modifyPort_outputs (p : PortNo) (f : Port → Port) (s : State) : (s.modifyPort p f).outputs = s.outputs := rfl
@[simp] theorem State.modifyPort_register (p : PortNo) (f : Port → Port) (s : State) : (s.modifyPort p f).register = s.register := rfl
@[simp] theorem State.modifyPort_panels (p : PortNo) (f : Port → Port) (s : State) : (s.modifyPort p f).panels = s.panels := rfl
@[simp] theorem State.modifyPort_batches (p : PortNo) (f : Port → Port) (s : State) : (s.modifyPort p f).batches = s.batches := rfl
@[simp] theorem State.modifyPort_winch (p : PortNo) (f : Port → Port) (s : State) : (s.modifyPort p f).winch = s.winch := rfl
@[simp] theorem State.modifyPort_grout (p : PortNo) (f : Port → Port) (s : State) : (s.modifyPort p f).grout = s.grout := rfl
@[simp] theorem State.modifyPort_stress (p : PortNo) (f : Port → Port) (s : State) : (s.modifyPort p f).stress = s.stress := rfl
@[simp] theorem State.modifyPort_journal (p : PortNo) (f : Port → Port) (s : State) : (s.modifyPort p f).journal = s.journal := rfl
@[simp] theorem State.modifyPort_settings (p : PortNo) (f : Port → Port) (s : State) : (s.modifyPort p f).settings = s.settings := rfl
@[simp] theorem State.modifyPort_staging (p : PortNo) (f : Port → Port) (s : State) : (s.modifyPort p f).staging = s.staging := rfl
@[simp] theorem State.modifyPort_deliveries (p : PortNo) (f : Port → Port) (s : State) : (s.modifyPort p f).deliveries = s.deliveries := rfl
@[simp] theorem State.modifyPort_pending (p : PortNo) (f : Port → Port) (s : State) : (s.modifyPort p f).pending = s.pending := rfl

/-! ## State.storeAt -/

@[simp] theorem State.storeAt_powered (p : PortNo) (off : Nat) (bs : List Byte) (s : State) : (s.storeAt p off bs).powered = s.powered := by
  unfold State.storeAt; split <;> rfl
@[simp] theorem State.storeAt_ready (p : PortNo) (off : Nat) (bs : List Byte) (s : State) : (s.storeAt p off bs).ready = s.ready := by
  unfold State.storeAt; split <;> rfl
@[simp] theorem State.storeAt_startCause (p : PortNo) (off : Nat) (bs : List Byte) (s : State) : (s.storeAt p off bs).startCause = s.startCause := by
  unfold State.storeAt; split <;> rfl
@[simp] theorem State.storeAt_clock (p : PortNo) (off : Nat) (bs : List Byte) (s : State) : (s.storeAt p off bs).clock = s.clock := by
  unfold State.storeAt; split <;> rfl
@[simp] theorem State.storeAt_marks (p : PortNo) (off : Nat) (bs : List Byte) (s : State) : (s.storeAt p off bs).marks = s.marks := by
  unfold State.storeAt; split <;> rfl
@[simp] theorem State.storeAt_meas (p : PortNo) (off : Nat) (bs : List Byte) (s : State) : (s.storeAt p off bs).meas = s.meas := by
  unfold State.storeAt; split <;> rfl
@[simp] theorem State.storeAt_supply (p : PortNo) (off : Nat) (bs : List Byte) (s : State) : (s.storeAt p off bs).supply = s.supply := by
  unfold State.storeAt; split <;> rfl
@[simp] theorem State.storeAt_outputs (p : PortNo) (off : Nat) (bs : List Byte) (s : State) : (s.storeAt p off bs).outputs = s.outputs := by
  unfold State.storeAt; split <;> rfl
@[simp] theorem State.storeAt_register (p : PortNo) (off : Nat) (bs : List Byte) (s : State) : (s.storeAt p off bs).register = s.register := by
  unfold State.storeAt; split <;> rfl
@[simp] theorem State.storeAt_panels (p : PortNo) (off : Nat) (bs : List Byte) (s : State) : (s.storeAt p off bs).panels = s.panels := by
  unfold State.storeAt; split <;> rfl
@[simp] theorem State.storeAt_batches (p : PortNo) (off : Nat) (bs : List Byte) (s : State) : (s.storeAt p off bs).batches = s.batches := by
  unfold State.storeAt; split <;> rfl
@[simp] theorem State.storeAt_winch (p : PortNo) (off : Nat) (bs : List Byte) (s : State) : (s.storeAt p off bs).winch = s.winch := by
  unfold State.storeAt; split <;> rfl
@[simp] theorem State.storeAt_grout (p : PortNo) (off : Nat) (bs : List Byte) (s : State) : (s.storeAt p off bs).grout = s.grout := by
  unfold State.storeAt; split <;> rfl
@[simp] theorem State.storeAt_stress (p : PortNo) (off : Nat) (bs : List Byte) (s : State) : (s.storeAt p off bs).stress = s.stress := by
  unfold State.storeAt; split <;> rfl
@[simp] theorem State.storeAt_journal (p : PortNo) (off : Nat) (bs : List Byte) (s : State) : (s.storeAt p off bs).journal = s.journal := by
  unfold State.storeAt; split <;> rfl
@[simp] theorem State.storeAt_settings (p : PortNo) (off : Nat) (bs : List Byte) (s : State) : (s.storeAt p off bs).settings = s.settings := by
  unfold State.storeAt; split <;> rfl
@[simp] theorem State.storeAt_staging (p : PortNo) (off : Nat) (bs : List Byte) (s : State) : (s.storeAt p off bs).staging = s.staging := by
  unfold State.storeAt; split <;> rfl
@[simp] theorem State.storeAt_deliveries (p : PortNo) (off : Nat) (bs : List Byte) (s : State) : (s.storeAt p off bs).deliveries = s.deliveries := by
  unfold State.storeAt; split <;> rfl
@[simp] theorem State.storeAt_pending (p : PortNo) (off : Nat) (bs : List Byte) (s : State) : (s.storeAt p off bs).pending = s.pending := by
  unfold State.storeAt; split <;> rfl

/-! ## State.taken -/

@[simp] theorem State.taken_powered (p : PortNo) (code : Byte) (form : List Byte) (s : State) : (s.taken p code form).powered = s.powered := rfl
@[simp] theorem State.taken_ready (p : PortNo) (code : Byte) (form : List Byte) (s : State) : (s.taken p code form).ready = s.ready := rfl
@[simp] theorem State.taken_startCause (p : PortNo) (code : Byte) (form : List Byte) (s : State) : (s.taken p code form).startCause = s.startCause := rfl
@[simp] theorem State.taken_clock (p : PortNo) (code : Byte) (form : List Byte) (s : State) : (s.taken p code form).clock = s.clock := rfl
@[simp] theorem State.taken_marks (p : PortNo) (code : Byte) (form : List Byte) (s : State) : (s.taken p code form).marks = s.marks := rfl
@[simp] theorem State.taken_meas (p : PortNo) (code : Byte) (form : List Byte) (s : State) : (s.taken p code form).meas = s.meas := rfl
@[simp] theorem State.taken_supply (p : PortNo) (code : Byte) (form : List Byte) (s : State) : (s.taken p code form).supply = s.supply := rfl
@[simp] theorem State.taken_outputs (p : PortNo) (code : Byte) (form : List Byte) (s : State) : (s.taken p code form).outputs = s.outputs := rfl
@[simp] theorem State.taken_register (p : PortNo) (code : Byte) (form : List Byte) (s : State) : (s.taken p code form).register = s.register := rfl
@[simp] theorem State.taken_panels (p : PortNo) (code : Byte) (form : List Byte) (s : State) : (s.taken p code form).panels = s.panels := rfl
@[simp] theorem State.taken_batches (p : PortNo) (code : Byte) (form : List Byte) (s : State) : (s.taken p code form).batches = s.batches := rfl
@[simp] theorem State.taken_winch (p : PortNo) (code : Byte) (form : List Byte) (s : State) : (s.taken p code form).winch = s.winch := rfl
@[simp] theorem State.taken_grout (p : PortNo) (code : Byte) (form : List Byte) (s : State) : (s.taken p code form).grout = s.grout := rfl
@[simp] theorem State.taken_stress (p : PortNo) (code : Byte) (form : List Byte) (s : State) : (s.taken p code form).stress = s.stress := rfl
@[simp] theorem State.taken_journal (p : PortNo) (code : Byte) (form : List Byte) (s : State) : (s.taken p code form).journal = s.journal := rfl
@[simp] theorem State.taken_settings (p : PortNo) (code : Byte) (form : List Byte) (s : State) : (s.taken p code form).settings = s.settings := rfl
@[simp] theorem State.taken_staging (p : PortNo) (code : Byte) (form : List Byte) (s : State) : (s.taken p code form).staging = s.staging := rfl
@[simp] theorem State.taken_deliveries (p : PortNo) (code : Byte) (form : List Byte) (s : State) : (s.taken p code form).deliveries = s.deliveries := rfl
@[simp] theorem State.taken_pending (p : PortNo) (code : Byte) (form : List Byte) (s : State) : (s.taken p code form).pending = s.pending := rfl

/-! ## State.answer -/

@[simp] theorem State.answer_powered (p : PortNo) (st : Status) (data : List Byte) (s : State) : (s.answer p st data).powered = s.powered := rfl
@[simp] theorem State.answer_ready (p : PortNo) (st : Status) (data : List Byte) (s : State) : (s.answer p st data).ready = s.ready := rfl
@[simp] theorem State.answer_startCause (p : PortNo) (st : Status) (data : List Byte) (s : State) : (s.answer p st data).startCause = s.startCause := rfl
@[simp] theorem State.answer_clock (p : PortNo) (st : Status) (data : List Byte) (s : State) : (s.answer p st data).clock = s.clock := rfl
@[simp] theorem State.answer_marks (p : PortNo) (st : Status) (data : List Byte) (s : State) : (s.answer p st data).marks = s.marks := rfl
@[simp] theorem State.answer_meas (p : PortNo) (st : Status) (data : List Byte) (s : State) : (s.answer p st data).meas = s.meas := rfl
@[simp] theorem State.answer_supply (p : PortNo) (st : Status) (data : List Byte) (s : State) : (s.answer p st data).supply = s.supply := rfl
@[simp] theorem State.answer_outputs (p : PortNo) (st : Status) (data : List Byte) (s : State) : (s.answer p st data).outputs = s.outputs := rfl
@[simp] theorem State.answer_register (p : PortNo) (st : Status) (data : List Byte) (s : State) : (s.answer p st data).register = s.register := rfl
@[simp] theorem State.answer_panels (p : PortNo) (st : Status) (data : List Byte) (s : State) : (s.answer p st data).panels = s.panels := rfl
@[simp] theorem State.answer_batches (p : PortNo) (st : Status) (data : List Byte) (s : State) : (s.answer p st data).batches = s.batches := rfl
@[simp] theorem State.answer_winch (p : PortNo) (st : Status) (data : List Byte) (s : State) : (s.answer p st data).winch = s.winch := rfl
@[simp] theorem State.answer_grout (p : PortNo) (st : Status) (data : List Byte) (s : State) : (s.answer p st data).grout = s.grout := rfl
@[simp] theorem State.answer_stress (p : PortNo) (st : Status) (data : List Byte) (s : State) : (s.answer p st data).stress = s.stress := rfl
@[simp] theorem State.answer_journal (p : PortNo) (st : Status) (data : List Byte) (s : State) : (s.answer p st data).journal = s.journal := rfl
@[simp] theorem State.answer_settings (p : PortNo) (st : Status) (data : List Byte) (s : State) : (s.answer p st data).settings = s.settings := rfl
@[simp] theorem State.answer_staging (p : PortNo) (st : Status) (data : List Byte) (s : State) : (s.answer p st data).staging = s.staging := rfl
@[simp] theorem State.answer_deliveries (p : PortNo) (st : Status) (data : List Byte) (s : State) : (s.answer p st data).deliveries = s.deliveries := rfl
@[simp] theorem State.answer_pending (p : PortNo) (st : Status) (data : List Byte) (s : State) : (s.answer p st data).pending = s.pending := rfl

/-! ## State.setCursor -/

@[simp] theorem State.setCursor_powered (p : PortNo) (c : Option Position) (s : State) : (s.setCursor p c).powered = s.powered := rfl
@[simp] theorem State.setCursor_ready (p : PortNo) (c : Option Position) (s : State) : (s.setCursor p c).ready = s.ready := rfl
@[simp] theorem State.setCursor_startCause (p : PortNo) (c : Option Position) (s : State) : (s.setCursor p c).startCause = s.startCause := rfl
@[simp] theorem State.setCursor_clock (p : PortNo) (c : Option Position) (s : State) : (s.setCursor p c).clock = s.clock := rfl
@[simp] theorem State.setCursor_marks (p : PortNo) (c : Option Position) (s : State) : (s.setCursor p c).marks = s.marks := rfl
@[simp] theorem State.setCursor_meas (p : PortNo) (c : Option Position) (s : State) : (s.setCursor p c).meas = s.meas := rfl
@[simp] theorem State.setCursor_supply (p : PortNo) (c : Option Position) (s : State) : (s.setCursor p c).supply = s.supply := rfl
@[simp] theorem State.setCursor_outputs (p : PortNo) (c : Option Position) (s : State) : (s.setCursor p c).outputs = s.outputs := rfl
@[simp] theorem State.setCursor_register (p : PortNo) (c : Option Position) (s : State) : (s.setCursor p c).register = s.register := rfl
@[simp] theorem State.setCursor_panels (p : PortNo) (c : Option Position) (s : State) : (s.setCursor p c).panels = s.panels := rfl
@[simp] theorem State.setCursor_batches (p : PortNo) (c : Option Position) (s : State) : (s.setCursor p c).batches = s.batches := rfl
@[simp] theorem State.setCursor_winch (p : PortNo) (c : Option Position) (s : State) : (s.setCursor p c).winch = s.winch := rfl
@[simp] theorem State.setCursor_grout (p : PortNo) (c : Option Position) (s : State) : (s.setCursor p c).grout = s.grout := rfl
@[simp] theorem State.setCursor_stress (p : PortNo) (c : Option Position) (s : State) : (s.setCursor p c).stress = s.stress := rfl
@[simp] theorem State.setCursor_journal (p : PortNo) (c : Option Position) (s : State) : (s.setCursor p c).journal = s.journal := rfl
@[simp] theorem State.setCursor_settings (p : PortNo) (c : Option Position) (s : State) : (s.setCursor p c).settings = s.settings := rfl
@[simp] theorem State.setCursor_staging (p : PortNo) (c : Option Position) (s : State) : (s.setCursor p c).staging = s.staging := rfl
@[simp] theorem State.setCursor_deliveries (p : PortNo) (c : Option Position) (s : State) : (s.setCursor p c).deliveries = s.deliveries := rfl
@[simp] theorem State.setCursor_pending (p : PortNo) (c : Option Position) (s : State) : (s.setCursor p c).pending = s.pending := rfl

/-! ## State.send -/

@[simp] theorem State.send_powered (d : Delivery) (s : State) : (s.send d).powered = s.powered := rfl
@[simp] theorem State.send_ready (d : Delivery) (s : State) : (s.send d).ready = s.ready := rfl
@[simp] theorem State.send_startCause (d : Delivery) (s : State) : (s.send d).startCause = s.startCause := rfl
@[simp] theorem State.send_clock (d : Delivery) (s : State) : (s.send d).clock = s.clock := rfl
@[simp] theorem State.send_marks (d : Delivery) (s : State) : (s.send d).marks = s.marks := rfl
@[simp] theorem State.send_meas (d : Delivery) (s : State) : (s.send d).meas = s.meas := rfl
@[simp] theorem State.send_supply (d : Delivery) (s : State) : (s.send d).supply = s.supply := rfl
@[simp] theorem State.send_outputs (d : Delivery) (s : State) : (s.send d).outputs = s.outputs := rfl
@[simp] theorem State.send_register (d : Delivery) (s : State) : (s.send d).register = s.register := rfl
@[simp] theorem State.send_panels (d : Delivery) (s : State) : (s.send d).panels = s.panels := rfl
@[simp] theorem State.send_batches (d : Delivery) (s : State) : (s.send d).batches = s.batches := rfl
@[simp] theorem State.send_winch (d : Delivery) (s : State) : (s.send d).winch = s.winch := rfl
@[simp] theorem State.send_grout (d : Delivery) (s : State) : (s.send d).grout = s.grout := rfl
@[simp] theorem State.send_stress (d : Delivery) (s : State) : (s.send d).stress = s.stress := rfl
@[simp] theorem State.send_journal (d : Delivery) (s : State) : (s.send d).journal = s.journal := rfl
@[simp] theorem State.send_settings (d : Delivery) (s : State) : (s.send d).settings = s.settings := rfl
@[simp] theorem State.send_staging (d : Delivery) (s : State) : (s.send d).staging = s.staging := rfl
@[simp] theorem State.send_ports (d : Delivery) (s : State) : (s.send d).ports = s.ports := rfl
@[simp] theorem State.send_pending (d : Delivery) (s : State) : (s.send d).pending = s.pending := rfl

/-! ## State.claimFlow -/

@[simp] theorem State.claimFlow_powered (e : Engine) (s : State) : (s.claimFlow e).powered = s.powered := rfl
@[simp] theorem State.claimFlow_ready (e : Engine) (s : State) : (s.claimFlow e).ready = s.ready := rfl
@[simp] theorem State.claimFlow_startCause (e : Engine) (s : State) : (s.claimFlow e).startCause = s.startCause := rfl
@[simp] theorem State.claimFlow_clock (e : Engine) (s : State) : (s.claimFlow e).clock = s.clock := rfl
@[simp] theorem State.claimFlow_marks (e : Engine) (s : State) : (s.claimFlow e).marks = s.marks := rfl
@[simp] theorem State.claimFlow_meas (e : Engine) (s : State) : (s.claimFlow e).meas = s.meas := rfl
@[simp] theorem State.claimFlow_supply (e : Engine) (s : State) : (s.claimFlow e).supply = s.supply := rfl
@[simp] theorem State.claimFlow_outputs (e : Engine) (s : State) : (s.claimFlow e).outputs = s.outputs := rfl
@[simp] theorem State.claimFlow_register (e : Engine) (s : State) : (s.claimFlow e).register = s.register := rfl
@[simp] theorem State.claimFlow_panels (e : Engine) (s : State) : (s.claimFlow e).panels = s.panels := rfl
@[simp] theorem State.claimFlow_batches (e : Engine) (s : State) : (s.claimFlow e).batches = s.batches := rfl
@[simp] theorem State.claimFlow_winch (e : Engine) (s : State) : (s.claimFlow e).winch = s.winch := rfl
@[simp] theorem State.claimFlow_grout (e : Engine) (s : State) : (s.claimFlow e).grout = s.grout := rfl
@[simp] theorem State.claimFlow_stress (e : Engine) (s : State) : (s.claimFlow e).stress = s.stress := rfl
@[simp] theorem State.claimFlow_journal (e : Engine) (s : State) : (s.claimFlow e).journal = s.journal := rfl
@[simp] theorem State.claimFlow_settings (e : Engine) (s : State) : (s.claimFlow e).settings = s.settings := rfl
@[simp] theorem State.claimFlow_staging (e : Engine) (s : State) : (s.claimFlow e).staging = s.staging := rfl
@[simp] theorem State.claimFlow_ports (e : Engine) (s : State) : (s.claimFlow e).ports = s.ports := rfl
@[simp] theorem State.claimFlow_pending (e : Engine) (s : State) : (s.claimFlow e).pending = s.pending := rfl

/-! ## State.releaseFlow -/

@[simp] theorem State.releaseFlow_powered (e : Engine) (s : State) : (s.releaseFlow e).powered = s.powered := rfl
@[simp] theorem State.releaseFlow_ready (e : Engine) (s : State) : (s.releaseFlow e).ready = s.ready := rfl
@[simp] theorem State.releaseFlow_startCause (e : Engine) (s : State) : (s.releaseFlow e).startCause = s.startCause := rfl
@[simp] theorem State.releaseFlow_clock (e : Engine) (s : State) : (s.releaseFlow e).clock = s.clock := rfl
@[simp] theorem State.releaseFlow_marks (e : Engine) (s : State) : (s.releaseFlow e).marks = s.marks := rfl
@[simp] theorem State.releaseFlow_meas (e : Engine) (s : State) : (s.releaseFlow e).meas = s.meas := rfl
@[simp] theorem State.releaseFlow_supply (e : Engine) (s : State) : (s.releaseFlow e).supply = s.supply := rfl
@[simp] theorem State.releaseFlow_outputs (e : Engine) (s : State) : (s.releaseFlow e).outputs = s.outputs := rfl
@[simp] theorem State.releaseFlow_register (e : Engine) (s : State) : (s.releaseFlow e).register = s.register := rfl
@[simp] theorem State.releaseFlow_panels (e : Engine) (s : State) : (s.releaseFlow e).panels = s.panels := rfl
@[simp] theorem State.releaseFlow_batches (e : Engine) (s : State) : (s.releaseFlow e).batches = s.batches := rfl
@[simp] theorem State.releaseFlow_winch (e : Engine) (s : State) : (s.releaseFlow e).winch = s.winch := rfl
@[simp] theorem State.releaseFlow_grout (e : Engine) (s : State) : (s.releaseFlow e).grout = s.grout := rfl
@[simp] theorem State.releaseFlow_stress (e : Engine) (s : State) : (s.releaseFlow e).stress = s.stress := rfl
@[simp] theorem State.releaseFlow_journal (e : Engine) (s : State) : (s.releaseFlow e).journal = s.journal := rfl
@[simp] theorem State.releaseFlow_settings (e : Engine) (s : State) : (s.releaseFlow e).settings = s.settings := rfl
@[simp] theorem State.releaseFlow_staging (e : Engine) (s : State) : (s.releaseFlow e).staging = s.staging := rfl
@[simp] theorem State.releaseFlow_ports (e : Engine) (s : State) : (s.releaseFlow e).ports = s.ports := rfl
@[simp] theorem State.releaseFlow_pending (e : Engine) (s : State) : (s.releaseFlow e).pending = s.pending := rfl

/-! ## State.insertMark -/

@[simp] theorem State.insertMark_powered (n : MarkName) (due : SiteTime) (s : State) : (s.insertMark n due).powered = s.powered := rfl
@[simp] theorem State.insertMark_ready (n : MarkName) (due : SiteTime) (s : State) : (s.insertMark n due).ready = s.ready := rfl
@[simp] theorem State.insertMark_startCause (n : MarkName) (due : SiteTime) (s : State) : (s.insertMark n due).startCause = s.startCause := rfl
@[simp] theorem State.insertMark_clock (n : MarkName) (due : SiteTime) (s : State) : (s.insertMark n due).clock = s.clock := rfl
@[simp] theorem State.insertMark_meas (n : MarkName) (due : SiteTime) (s : State) : (s.insertMark n due).meas = s.meas := rfl
@[simp] theorem State.insertMark_supply (n : MarkName) (due : SiteTime) (s : State) : (s.insertMark n due).supply = s.supply := rfl
@[simp] theorem State.insertMark_outputs (n : MarkName) (due : SiteTime) (s : State) : (s.insertMark n due).outputs = s.outputs := rfl
@[simp] theorem State.insertMark_register (n : MarkName) (due : SiteTime) (s : State) : (s.insertMark n due).register = s.register := rfl
@[simp] theorem State.insertMark_panels (n : MarkName) (due : SiteTime) (s : State) : (s.insertMark n due).panels = s.panels := rfl
@[simp] theorem State.insertMark_batches (n : MarkName) (due : SiteTime) (s : State) : (s.insertMark n due).batches = s.batches := rfl
@[simp] theorem State.insertMark_winch (n : MarkName) (due : SiteTime) (s : State) : (s.insertMark n due).winch = s.winch := rfl
@[simp] theorem State.insertMark_grout (n : MarkName) (due : SiteTime) (s : State) : (s.insertMark n due).grout = s.grout := rfl
@[simp] theorem State.insertMark_stress (n : MarkName) (due : SiteTime) (s : State) : (s.insertMark n due).stress = s.stress := rfl
@[simp] theorem State.insertMark_journal (n : MarkName) (due : SiteTime) (s : State) : (s.insertMark n due).journal = s.journal := rfl
@[simp] theorem State.insertMark_settings (n : MarkName) (due : SiteTime) (s : State) : (s.insertMark n due).settings = s.settings := rfl
@[simp] theorem State.insertMark_staging (n : MarkName) (due : SiteTime) (s : State) : (s.insertMark n due).staging = s.staging := rfl
@[simp] theorem State.insertMark_ports (n : MarkName) (due : SiteTime) (s : State) : (s.insertMark n due).ports = s.ports := rfl
@[simp] theorem State.insertMark_deliveries (n : MarkName) (due : SiteTime) (s : State) : (s.insertMark n due).deliveries = s.deliveries := rfl
@[simp] theorem State.insertMark_pending (n : MarkName) (due : SiteTime) (s : State) : (s.insertMark n due).pending = s.pending := rfl

/-! ## State.removeMark -/

@[simp] theorem State.removeMark_powered (n : MarkName) (s : State) : (s.removeMark n).powered = s.powered := rfl
@[simp] theorem State.removeMark_ready (n : MarkName) (s : State) : (s.removeMark n).ready = s.ready := rfl
@[simp] theorem State.removeMark_startCause (n : MarkName) (s : State) : (s.removeMark n).startCause = s.startCause := rfl
@[simp] theorem State.removeMark_clock (n : MarkName) (s : State) : (s.removeMark n).clock = s.clock := rfl
@[simp] theorem State.removeMark_meas (n : MarkName) (s : State) : (s.removeMark n).meas = s.meas := rfl
@[simp] theorem State.removeMark_supply (n : MarkName) (s : State) : (s.removeMark n).supply = s.supply := rfl
@[simp] theorem State.removeMark_outputs (n : MarkName) (s : State) : (s.removeMark n).outputs = s.outputs := rfl
@[simp] theorem State.removeMark_register (n : MarkName) (s : State) : (s.removeMark n).register = s.register := rfl
@[simp] theorem State.removeMark_panels (n : MarkName) (s : State) : (s.removeMark n).panels = s.panels := rfl
@[simp] theorem State.removeMark_batches (n : MarkName) (s : State) : (s.removeMark n).batches = s.batches := rfl
@[simp] theorem State.removeMark_winch (n : MarkName) (s : State) : (s.removeMark n).winch = s.winch := rfl
@[simp] theorem State.removeMark_grout (n : MarkName) (s : State) : (s.removeMark n).grout = s.grout := rfl
@[simp] theorem State.removeMark_stress (n : MarkName) (s : State) : (s.removeMark n).stress = s.stress := rfl
@[simp] theorem State.removeMark_journal (n : MarkName) (s : State) : (s.removeMark n).journal = s.journal := rfl
@[simp] theorem State.removeMark_settings (n : MarkName) (s : State) : (s.removeMark n).settings = s.settings := rfl
@[simp] theorem State.removeMark_staging (n : MarkName) (s : State) : (s.removeMark n).staging = s.staging := rfl
@[simp] theorem State.removeMark_ports (n : MarkName) (s : State) : (s.removeMark n).ports = s.ports := rfl
@[simp] theorem State.removeMark_deliveries (n : MarkName) (s : State) : (s.removeMark n).deliveries = s.deliveries := rfl
@[simp] theorem State.removeMark_pending (n : MarkName) (s : State) : (s.removeMark n).pending = s.pending := rfl

/-! ## State.removeStressMarks -/

@[simp] theorem State.removeStressMarks_powered (s : State) : (s.removeStressMarks).powered = s.powered := rfl
@[simp] theorem State.removeStressMarks_ready (s : State) : (s.removeStressMarks).ready = s.ready := rfl
@[simp] theorem State.removeStressMarks_startCause (s : State) : (s.removeStressMarks).startCause = s.startCause := rfl
@[simp] theorem State.removeStressMarks_clock (s : State) : (s.removeStressMarks).clock = s.clock := rfl
@[simp] theorem State.removeStressMarks_meas (s : State) : (s.removeStressMarks).meas = s.meas := rfl
@[simp] theorem State.removeStressMarks_supply (s : State) : (s.removeStressMarks).supply = s.supply := rfl
@[simp] theorem State.removeStressMarks_outputs (s : State) : (s.removeStressMarks).outputs = s.outputs := rfl
@[simp] theorem State.removeStressMarks_register (s : State) : (s.removeStressMarks).register = s.register := rfl
@[simp] theorem State.removeStressMarks_panels (s : State) : (s.removeStressMarks).panels = s.panels := rfl
@[simp] theorem State.removeStressMarks_batches (s : State) : (s.removeStressMarks).batches = s.batches := rfl
@[simp] theorem State.removeStressMarks_winch (s : State) : (s.removeStressMarks).winch = s.winch := rfl
@[simp] theorem State.removeStressMarks_grout (s : State) : (s.removeStressMarks).grout = s.grout := rfl
@[simp] theorem State.removeStressMarks_stress (s : State) : (s.removeStressMarks).stress = s.stress := rfl
@[simp] theorem State.removeStressMarks_journal (s : State) : (s.removeStressMarks).journal = s.journal := rfl
@[simp] theorem State.removeStressMarks_settings (s : State) : (s.removeStressMarks).settings = s.settings := rfl
@[simp] theorem State.removeStressMarks_staging (s : State) : (s.removeStressMarks).staging = s.staging := rfl
@[simp] theorem State.removeStressMarks_ports (s : State) : (s.removeStressMarks).ports = s.ports := rfl
@[simp] theorem State.removeStressMarks_deliveries (s : State) : (s.removeStressMarks).deliveries = s.deliveries := rfl
@[simp] theorem State.removeStressMarks_pending (s : State) : (s.removeStressMarks).pending = s.pending := rfl

/-! ## State.writeDuty -/

@[simp] theorem State.writeDuty_powered (who : Engine) (v : Valve) (d : Nat) (s : State) : (s.writeDuty who v d).powered = s.powered := rfl
@[simp] theorem State.writeDuty_ready (who : Engine) (v : Valve) (d : Nat) (s : State) : (s.writeDuty who v d).ready = s.ready := rfl
@[simp] theorem State.writeDuty_startCause (who : Engine) (v : Valve) (d : Nat) (s : State) : (s.writeDuty who v d).startCause = s.startCause := rfl
@[simp] theorem State.writeDuty_clock (who : Engine) (v : Valve) (d : Nat) (s : State) : (s.writeDuty who v d).clock = s.clock := rfl
@[simp] theorem State.writeDuty_marks (who : Engine) (v : Valve) (d : Nat) (s : State) : (s.writeDuty who v d).marks = s.marks := rfl
@[simp] theorem State.writeDuty_meas (who : Engine) (v : Valve) (d : Nat) (s : State) : (s.writeDuty who v d).meas = s.meas := rfl
@[simp] theorem State.writeDuty_supply (who : Engine) (v : Valve) (d : Nat) (s : State) : (s.writeDuty who v d).supply = s.supply := rfl
@[simp] theorem State.writeDuty_register (who : Engine) (v : Valve) (d : Nat) (s : State) : (s.writeDuty who v d).register = s.register := rfl
@[simp] theorem State.writeDuty_panels (who : Engine) (v : Valve) (d : Nat) (s : State) : (s.writeDuty who v d).panels = s.panels := rfl
@[simp] theorem State.writeDuty_batches (who : Engine) (v : Valve) (d : Nat) (s : State) : (s.writeDuty who v d).batches = s.batches := rfl
@[simp] theorem State.writeDuty_winch (who : Engine) (v : Valve) (d : Nat) (s : State) : (s.writeDuty who v d).winch = s.winch := rfl
@[simp] theorem State.writeDuty_grout (who : Engine) (v : Valve) (d : Nat) (s : State) : (s.writeDuty who v d).grout = s.grout := rfl
@[simp] theorem State.writeDuty_stress (who : Engine) (v : Valve) (d : Nat) (s : State) : (s.writeDuty who v d).stress = s.stress := rfl
@[simp] theorem State.writeDuty_journal (who : Engine) (v : Valve) (d : Nat) (s : State) : (s.writeDuty who v d).journal = s.journal := rfl
@[simp] theorem State.writeDuty_settings (who : Engine) (v : Valve) (d : Nat) (s : State) : (s.writeDuty who v d).settings = s.settings := rfl
@[simp] theorem State.writeDuty_staging (who : Engine) (v : Valve) (d : Nat) (s : State) : (s.writeDuty who v d).staging = s.staging := rfl
@[simp] theorem State.writeDuty_ports (who : Engine) (v : Valve) (d : Nat) (s : State) : (s.writeDuty who v d).ports = s.ports := rfl
@[simp] theorem State.writeDuty_deliveries (who : Engine) (v : Valve) (d : Nat) (s : State) : (s.writeDuty who v d).deliveries = s.deliveries := rfl
@[simp] theorem State.writeDuty_pending (who : Engine) (v : Valve) (d : Nat) (s : State) : (s.writeDuty who v d).pending = s.pending := rfl

/-! ## State.stopJack -/

@[simp] theorem State.stopJack_powered (s : State) : (s.stopJack).powered = s.powered := rfl
@[simp] theorem State.stopJack_ready (s : State) : (s.stopJack).ready = s.ready := rfl
@[simp] theorem State.stopJack_startCause (s : State) : (s.stopJack).startCause = s.startCause := rfl
@[simp] theorem State.stopJack_clock (s : State) : (s.stopJack).clock = s.clock := rfl
@[simp] theorem State.stopJack_marks (s : State) : (s.stopJack).marks = s.marks := rfl
@[simp] theorem State.stopJack_meas (s : State) : (s.stopJack).meas = s.meas := rfl
@[simp] theorem State.stopJack_supply (s : State) : (s.stopJack).supply = s.supply := rfl
@[simp] theorem State.stopJack_register (s : State) : (s.stopJack).register = s.register := rfl
@[simp] theorem State.stopJack_panels (s : State) : (s.stopJack).panels = s.panels := rfl
@[simp] theorem State.stopJack_batches (s : State) : (s.stopJack).batches = s.batches := rfl
@[simp] theorem State.stopJack_winch (s : State) : (s.stopJack).winch = s.winch := rfl
@[simp] theorem State.stopJack_grout (s : State) : (s.stopJack).grout = s.grout := rfl
@[simp] theorem State.stopJack_stress (s : State) : (s.stopJack).stress = s.stress := rfl
@[simp] theorem State.stopJack_journal (s : State) : (s.stopJack).journal = s.journal := rfl
@[simp] theorem State.stopJack_settings (s : State) : (s.stopJack).settings = s.settings := rfl
@[simp] theorem State.stopJack_staging (s : State) : (s.stopJack).staging = s.staging := rfl
@[simp] theorem State.stopJack_ports (s : State) : (s.stopJack).ports = s.ports := rfl
@[simp] theorem State.stopJack_deliveries (s : State) : (s.stopJack).deliveries = s.deliveries := rfl
@[simp] theorem State.stopJack_pending (s : State) : (s.stopJack).pending = s.pending := rfl

/-! ## State.modifyAnchor -/

@[simp] theorem State.modifyAnchor_powered (p : Position) (f : Anchor → Anchor) (s : State) : (s.modifyAnchor p f).powered = s.powered := rfl
@[simp] theorem State.modifyAnchor_ready (p : Position) (f : Anchor → Anchor) (s : State) : (s.modifyAnchor p f).ready = s.ready := rfl
@[simp] theorem State.modifyAnchor_startCause (p : Position) (f : Anchor → Anchor) (s : State) : (s.modifyAnchor p f).startCause = s.startCause := rfl
@[simp] theorem State.modifyAnchor_clock (p : Position) (f : Anchor → Anchor) (s : State) : (s.modifyAnchor p f).clock = s.clock := rfl
@[simp] theorem State.modifyAnchor_marks (p : Position) (f : Anchor → Anchor) (s : State) : (s.modifyAnchor p f).marks = s.marks := rfl
@[simp] theorem State.modifyAnchor_meas (p : Position) (f : Anchor → Anchor) (s : State) : (s.modifyAnchor p f).meas = s.meas := rfl
@[simp] theorem State.modifyAnchor_supply (p : Position) (f : Anchor → Anchor) (s : State) : (s.modifyAnchor p f).supply = s.supply := rfl
@[simp] theorem State.modifyAnchor_outputs (p : Position) (f : Anchor → Anchor) (s : State) : (s.modifyAnchor p f).outputs = s.outputs := rfl
@[simp] theorem State.modifyAnchor_panels (p : Position) (f : Anchor → Anchor) (s : State) : (s.modifyAnchor p f).panels = s.panels := rfl
@[simp] theorem State.modifyAnchor_batches (p : Position) (f : Anchor → Anchor) (s : State) : (s.modifyAnchor p f).batches = s.batches := rfl
@[simp] theorem State.modifyAnchor_winch (p : Position) (f : Anchor → Anchor) (s : State) : (s.modifyAnchor p f).winch = s.winch := rfl
@[simp] theorem State.modifyAnchor_grout (p : Position) (f : Anchor → Anchor) (s : State) : (s.modifyAnchor p f).grout = s.grout := rfl
@[simp] theorem State.modifyAnchor_stress (p : Position) (f : Anchor → Anchor) (s : State) : (s.modifyAnchor p f).stress = s.stress := rfl
@[simp] theorem State.modifyAnchor_journal (p : Position) (f : Anchor → Anchor) (s : State) : (s.modifyAnchor p f).journal = s.journal := rfl
@[simp] theorem State.modifyAnchor_settings (p : Position) (f : Anchor → Anchor) (s : State) : (s.modifyAnchor p f).settings = s.settings := rfl
@[simp] theorem State.modifyAnchor_staging (p : Position) (f : Anchor → Anchor) (s : State) : (s.modifyAnchor p f).staging = s.staging := rfl
@[simp] theorem State.modifyAnchor_ports (p : Position) (f : Anchor → Anchor) (s : State) : (s.modifyAnchor p f).ports = s.ports := rfl
@[simp] theorem State.modifyAnchor_deliveries (p : Position) (f : Anchor → Anchor) (s : State) : (s.modifyAnchor p f).deliveries = s.deliveries := rfl
@[simp] theorem State.modifyAnchor_pending (p : Position) (f : Anchor → Anchor) (s : State) : (s.modifyAnchor p f).pending = s.pending := rfl

/-! ## State.grantPass -/

@[simp] theorem State.grantPass_powered (s : State) : (s.grantPass).powered = s.powered := rfl
@[simp] theorem State.grantPass_ready (s : State) : (s.grantPass).ready = s.ready := rfl
@[simp] theorem State.grantPass_startCause (s : State) : (s.grantPass).startCause = s.startCause := rfl
@[simp] theorem State.grantPass_clock (s : State) : (s.grantPass).clock = s.clock := rfl
@[simp] theorem State.grantPass_marks (s : State) : (s.grantPass).marks = s.marks := rfl
@[simp] theorem State.grantPass_meas (s : State) : (s.grantPass).meas = s.meas := rfl
@[simp] theorem State.grantPass_outputs (s : State) : (s.grantPass).outputs = s.outputs := rfl
@[simp] theorem State.grantPass_register (s : State) : (s.grantPass).register = s.register := rfl
@[simp] theorem State.grantPass_panels (s : State) : (s.grantPass).panels = s.panels := rfl
@[simp] theorem State.grantPass_batches (s : State) : (s.grantPass).batches = s.batches := rfl
@[simp] theorem State.grantPass_winch (s : State) : (s.grantPass).winch = s.winch := rfl
@[simp] theorem State.grantPass_grout (s : State) : (s.grantPass).grout = s.grout := rfl
@[simp] theorem State.grantPass_stress (s : State) : (s.grantPass).stress = s.stress := rfl
@[simp] theorem State.grantPass_journal (s : State) : (s.grantPass).journal = s.journal := rfl
@[simp] theorem State.grantPass_settings (s : State) : (s.grantPass).settings = s.settings := rfl
@[simp] theorem State.grantPass_staging (s : State) : (s.grantPass).staging = s.staging := rfl
@[simp] theorem State.grantPass_ports (s : State) : (s.grantPass).ports = s.ports := rfl
@[simp] theorem State.grantPass_pending (s : State) : (s.grantPass).pending = s.pending := rfl

/-! ## State.acceptClaim -/

@[simp] theorem State.acceptClaim_powered (e : Engine) (demand : Nat) (s : State) : (s.acceptClaim e demand).powered = s.powered := rfl
@[simp] theorem State.acceptClaim_ready (e : Engine) (demand : Nat) (s : State) : (s.acceptClaim e demand).ready = s.ready := rfl
@[simp] theorem State.acceptClaim_startCause (e : Engine) (demand : Nat) (s : State) : (s.acceptClaim e demand).startCause = s.startCause := rfl
@[simp] theorem State.acceptClaim_clock (e : Engine) (demand : Nat) (s : State) : (s.acceptClaim e demand).clock = s.clock := rfl
@[simp] theorem State.acceptClaim_marks (e : Engine) (demand : Nat) (s : State) : (s.acceptClaim e demand).marks = s.marks := rfl
@[simp] theorem State.acceptClaim_meas (e : Engine) (demand : Nat) (s : State) : (s.acceptClaim e demand).meas = s.meas := rfl
@[simp] theorem State.acceptClaim_outputs (e : Engine) (demand : Nat) (s : State) : (s.acceptClaim e demand).outputs = s.outputs := rfl
@[simp] theorem State.acceptClaim_register (e : Engine) (demand : Nat) (s : State) : (s.acceptClaim e demand).register = s.register := rfl
@[simp] theorem State.acceptClaim_panels (e : Engine) (demand : Nat) (s : State) : (s.acceptClaim e demand).panels = s.panels := rfl
@[simp] theorem State.acceptClaim_batches (e : Engine) (demand : Nat) (s : State) : (s.acceptClaim e demand).batches = s.batches := rfl
@[simp] theorem State.acceptClaim_winch (e : Engine) (demand : Nat) (s : State) : (s.acceptClaim e demand).winch = s.winch := rfl
@[simp] theorem State.acceptClaim_grout (e : Engine) (demand : Nat) (s : State) : (s.acceptClaim e demand).grout = s.grout := rfl
@[simp] theorem State.acceptClaim_stress (e : Engine) (demand : Nat) (s : State) : (s.acceptClaim e demand).stress = s.stress := rfl
@[simp] theorem State.acceptClaim_journal (e : Engine) (demand : Nat) (s : State) : (s.acceptClaim e demand).journal = s.journal := rfl
@[simp] theorem State.acceptClaim_settings (e : Engine) (demand : Nat) (s : State) : (s.acceptClaim e demand).settings = s.settings := rfl
@[simp] theorem State.acceptClaim_staging (e : Engine) (demand : Nat) (s : State) : (s.acceptClaim e demand).staging = s.staging := rfl
@[simp] theorem State.acceptClaim_ports (e : Engine) (demand : Nat) (s : State) : (s.acceptClaim e demand).ports = s.ports := rfl
@[simp] theorem State.acceptClaim_pending (e : Engine) (demand : Nat) (s : State) : (s.acceptClaim e demand).pending = s.pending := rfl

/-! ## State.latchTrip -/

@[simp] theorem State.latchTrip_powered (s : State) : (s.latchTrip).powered = s.powered := rfl
@[simp] theorem State.latchTrip_ready (s : State) : (s.latchTrip).ready = s.ready := rfl
@[simp] theorem State.latchTrip_startCause (s : State) : (s.latchTrip).startCause = s.startCause := rfl
@[simp] theorem State.latchTrip_clock (s : State) : (s.latchTrip).clock = s.clock := rfl
@[simp] theorem State.latchTrip_marks (s : State) : (s.latchTrip).marks = s.marks := rfl
@[simp] theorem State.latchTrip_meas (s : State) : (s.latchTrip).meas = s.meas := rfl
@[simp] theorem State.latchTrip_register (s : State) : (s.latchTrip).register = s.register := rfl
@[simp] theorem State.latchTrip_panels (s : State) : (s.latchTrip).panels = s.panels := rfl
@[simp] theorem State.latchTrip_batches (s : State) : (s.latchTrip).batches = s.batches := rfl
@[simp] theorem State.latchTrip_winch (s : State) : (s.latchTrip).winch = s.winch := rfl
@[simp] theorem State.latchTrip_grout (s : State) : (s.latchTrip).grout = s.grout := rfl
@[simp] theorem State.latchTrip_stress (s : State) : (s.latchTrip).stress = s.stress := rfl
@[simp] theorem State.latchTrip_journal (s : State) : (s.latchTrip).journal = s.journal := rfl
@[simp] theorem State.latchTrip_settings (s : State) : (s.latchTrip).settings = s.settings := rfl
@[simp] theorem State.latchTrip_staging (s : State) : (s.latchTrip).staging = s.staging := rfl
@[simp] theorem State.latchTrip_pending (s : State) : (s.latchTrip).pending = s.pending := rfl

/-! ## State.clearLatch -/

@[simp] theorem State.clearLatch_powered (s : State) : (s.clearLatch).powered = s.powered := rfl
@[simp] theorem State.clearLatch_ready (s : State) : (s.clearLatch).ready = s.ready := rfl
@[simp] theorem State.clearLatch_startCause (s : State) : (s.clearLatch).startCause = s.startCause := rfl
@[simp] theorem State.clearLatch_clock (s : State) : (s.clearLatch).clock = s.clock := rfl
@[simp] theorem State.clearLatch_marks (s : State) : (s.clearLatch).marks = s.marks := rfl
@[simp] theorem State.clearLatch_meas (s : State) : (s.clearLatch).meas = s.meas := rfl
@[simp] theorem State.clearLatch_outputs (s : State) : (s.clearLatch).outputs = s.outputs := rfl
@[simp] theorem State.clearLatch_register (s : State) : (s.clearLatch).register = s.register := rfl
@[simp] theorem State.clearLatch_panels (s : State) : (s.clearLatch).panels = s.panels := rfl
@[simp] theorem State.clearLatch_batches (s : State) : (s.clearLatch).batches = s.batches := rfl
@[simp] theorem State.clearLatch_winch (s : State) : (s.clearLatch).winch = s.winch := rfl
@[simp] theorem State.clearLatch_grout (s : State) : (s.clearLatch).grout = s.grout := rfl
@[simp] theorem State.clearLatch_stress (s : State) : (s.clearLatch).stress = s.stress := rfl
@[simp] theorem State.clearLatch_journal (s : State) : (s.clearLatch).journal = s.journal := rfl
@[simp] theorem State.clearLatch_settings (s : State) : (s.clearLatch).settings = s.settings := rfl
@[simp] theorem State.clearLatch_staging (s : State) : (s.clearLatch).staging = s.staging := rfl
@[simp] theorem State.clearLatch_ports (s : State) : (s.clearLatch).ports = s.ports := rfl
@[simp] theorem State.clearLatch_pending (s : State) : (s.clearLatch).pending = s.pending := rfl

/-! ## State.modifyPanel -/

@[simp] theorem State.modifyPanel_powered (n : Nat) (f : Panel → Panel) (s : State) : (s.modifyPanel n f).powered = s.powered := rfl
@[simp] theorem State.modifyPanel_ready (n : Nat) (f : Panel → Panel) (s : State) : (s.modifyPanel n f).ready = s.ready := rfl
@[simp] theorem State.modifyPanel_startCause (n : Nat) (f : Panel → Panel) (s : State) : (s.modifyPanel n f).startCause = s.startCause := rfl
@[simp] theorem State.modifyPanel_clock (n : Nat) (f : Panel → Panel) (s : State) : (s.modifyPanel n f).clock = s.clock := rfl
@[simp] theorem State.modifyPanel_marks (n : Nat) (f : Panel → Panel) (s : State) : (s.modifyPanel n f).marks = s.marks := rfl
@[simp] theorem State.modifyPanel_meas (n : Nat) (f : Panel → Panel) (s : State) : (s.modifyPanel n f).meas = s.meas := rfl
@[simp] theorem State.modifyPanel_supply (n : Nat) (f : Panel → Panel) (s : State) : (s.modifyPanel n f).supply = s.supply := rfl
@[simp] theorem State.modifyPanel_outputs (n : Nat) (f : Panel → Panel) (s : State) : (s.modifyPanel n f).outputs = s.outputs := rfl
@[simp] theorem State.modifyPanel_register (n : Nat) (f : Panel → Panel) (s : State) : (s.modifyPanel n f).register = s.register := rfl
@[simp] theorem State.modifyPanel_batches (n : Nat) (f : Panel → Panel) (s : State) : (s.modifyPanel n f).batches = s.batches := rfl
@[simp] theorem State.modifyPanel_winch (n : Nat) (f : Panel → Panel) (s : State) : (s.modifyPanel n f).winch = s.winch := rfl
@[simp] theorem State.modifyPanel_grout (n : Nat) (f : Panel → Panel) (s : State) : (s.modifyPanel n f).grout = s.grout := rfl
@[simp] theorem State.modifyPanel_stress (n : Nat) (f : Panel → Panel) (s : State) : (s.modifyPanel n f).stress = s.stress := rfl
@[simp] theorem State.modifyPanel_journal (n : Nat) (f : Panel → Panel) (s : State) : (s.modifyPanel n f).journal = s.journal := rfl
@[simp] theorem State.modifyPanel_settings (n : Nat) (f : Panel → Panel) (s : State) : (s.modifyPanel n f).settings = s.settings := rfl
@[simp] theorem State.modifyPanel_staging (n : Nat) (f : Panel → Panel) (s : State) : (s.modifyPanel n f).staging = s.staging := rfl
@[simp] theorem State.modifyPanel_ports (n : Nat) (f : Panel → Panel) (s : State) : (s.modifyPanel n f).ports = s.ports := rfl
@[simp] theorem State.modifyPanel_deliveries (n : Nat) (f : Panel → Panel) (s : State) : (s.modifyPanel n f).deliveries = s.deliveries := rfl
@[simp] theorem State.modifyPanel_pending (n : Nat) (f : Panel → Panel) (s : State) : (s.modifyPanel n f).pending = s.pending := rfl

/-! ## State.addLocked -/

@[simp] theorem State.addLocked_powered (panel residual : Nat) (s : State) : (s.addLocked panel residual).powered = s.powered := rfl
@[simp] theorem State.addLocked_ready (panel residual : Nat) (s : State) : (s.addLocked panel residual).ready = s.ready := rfl
@[simp] theorem State.addLocked_startCause (panel residual : Nat) (s : State) : (s.addLocked panel residual).startCause = s.startCause := rfl
@[simp] theorem State.addLocked_clock (panel residual : Nat) (s : State) : (s.addLocked panel residual).clock = s.clock := rfl
@[simp] theorem State.addLocked_marks (panel residual : Nat) (s : State) : (s.addLocked panel residual).marks = s.marks := rfl
@[simp] theorem State.addLocked_meas (panel residual : Nat) (s : State) : (s.addLocked panel residual).meas = s.meas := rfl
@[simp] theorem State.addLocked_supply (panel residual : Nat) (s : State) : (s.addLocked panel residual).supply = s.supply := rfl
@[simp] theorem State.addLocked_outputs (panel residual : Nat) (s : State) : (s.addLocked panel residual).outputs = s.outputs := rfl
@[simp] theorem State.addLocked_register (panel residual : Nat) (s : State) : (s.addLocked panel residual).register = s.register := rfl
@[simp] theorem State.addLocked_batches (panel residual : Nat) (s : State) : (s.addLocked panel residual).batches = s.batches := rfl
@[simp] theorem State.addLocked_winch (panel residual : Nat) (s : State) : (s.addLocked panel residual).winch = s.winch := rfl
@[simp] theorem State.addLocked_grout (panel residual : Nat) (s : State) : (s.addLocked panel residual).grout = s.grout := rfl
@[simp] theorem State.addLocked_stress (panel residual : Nat) (s : State) : (s.addLocked panel residual).stress = s.stress := rfl
@[simp] theorem State.addLocked_journal (panel residual : Nat) (s : State) : (s.addLocked panel residual).journal = s.journal := rfl
@[simp] theorem State.addLocked_settings (panel residual : Nat) (s : State) : (s.addLocked panel residual).settings = s.settings := rfl
@[simp] theorem State.addLocked_staging (panel residual : Nat) (s : State) : (s.addLocked panel residual).staging = s.staging := rfl
@[simp] theorem State.addLocked_ports (panel residual : Nat) (s : State) : (s.addLocked panel residual).ports = s.ports := rfl
@[simp] theorem State.addLocked_deliveries (panel residual : Nat) (s : State) : (s.addLocked panel residual).deliveries = s.deliveries := rfl
@[simp] theorem State.addLocked_pending (panel residual : Nat) (s : State) : (s.addLocked panel residual).pending = s.pending := rfl

/-! ## State.recomputeLocked -/

@[simp] theorem State.recomputeLocked_powered (s : State) : (s.recomputeLocked).powered = s.powered := rfl
@[simp] theorem State.recomputeLocked_ready (s : State) : (s.recomputeLocked).ready = s.ready := rfl
@[simp] theorem State.recomputeLocked_startCause (s : State) : (s.recomputeLocked).startCause = s.startCause := rfl
@[simp] theorem State.recomputeLocked_clock (s : State) : (s.recomputeLocked).clock = s.clock := rfl
@[simp] theorem State.recomputeLocked_marks (s : State) : (s.recomputeLocked).marks = s.marks := rfl
@[simp] theorem State.recomputeLocked_meas (s : State) : (s.recomputeLocked).meas = s.meas := rfl
@[simp] theorem State.recomputeLocked_supply (s : State) : (s.recomputeLocked).supply = s.supply := rfl
@[simp] theorem State.recomputeLocked_outputs (s : State) : (s.recomputeLocked).outputs = s.outputs := rfl
@[simp] theorem State.recomputeLocked_register (s : State) : (s.recomputeLocked).register = s.register := rfl
@[simp] theorem State.recomputeLocked_batches (s : State) : (s.recomputeLocked).batches = s.batches := rfl
@[simp] theorem State.recomputeLocked_winch (s : State) : (s.recomputeLocked).winch = s.winch := rfl
@[simp] theorem State.recomputeLocked_grout (s : State) : (s.recomputeLocked).grout = s.grout := rfl
@[simp] theorem State.recomputeLocked_stress (s : State) : (s.recomputeLocked).stress = s.stress := rfl
@[simp] theorem State.recomputeLocked_journal (s : State) : (s.recomputeLocked).journal = s.journal := rfl
@[simp] theorem State.recomputeLocked_settings (s : State) : (s.recomputeLocked).settings = s.settings := rfl
@[simp] theorem State.recomputeLocked_staging (s : State) : (s.recomputeLocked).staging = s.staging := rfl
@[simp] theorem State.recomputeLocked_ports (s : State) : (s.recomputeLocked).ports = s.ports := rfl
@[simp] theorem State.recomputeLocked_deliveries (s : State) : (s.recomputeLocked).deliveries = s.deliveries := rfl
@[simp] theorem State.recomputeLocked_pending (s : State) : (s.recomputeLocked).pending = s.pending := rfl

/-! ## State.retirePanel -/

@[simp] theorem State.retirePanel_powered (n : Nat) (s : State) : (s.retirePanel n).powered = s.powered := rfl
@[simp] theorem State.retirePanel_ready (n : Nat) (s : State) : (s.retirePanel n).ready = s.ready := rfl
@[simp] theorem State.retirePanel_startCause (n : Nat) (s : State) : (s.retirePanel n).startCause = s.startCause := rfl
@[simp] theorem State.retirePanel_clock (n : Nat) (s : State) : (s.retirePanel n).clock = s.clock := rfl
@[simp] theorem State.retirePanel_meas (n : Nat) (s : State) : (s.retirePanel n).meas = s.meas := rfl
@[simp] theorem State.retirePanel_supply (n : Nat) (s : State) : (s.retirePanel n).supply = s.supply := rfl
@[simp] theorem State.retirePanel_outputs (n : Nat) (s : State) : (s.retirePanel n).outputs = s.outputs := rfl
@[simp] theorem State.retirePanel_register (n : Nat) (s : State) : (s.retirePanel n).register = s.register := rfl
@[simp] theorem State.retirePanel_batches (n : Nat) (s : State) : (s.retirePanel n).batches = s.batches := rfl
@[simp] theorem State.retirePanel_winch (n : Nat) (s : State) : (s.retirePanel n).winch = s.winch := rfl
@[simp] theorem State.retirePanel_grout (n : Nat) (s : State) : (s.retirePanel n).grout = s.grout := rfl
@[simp] theorem State.retirePanel_stress (n : Nat) (s : State) : (s.retirePanel n).stress = s.stress := rfl
@[simp] theorem State.retirePanel_journal (n : Nat) (s : State) : (s.retirePanel n).journal = s.journal := rfl
@[simp] theorem State.retirePanel_settings (n : Nat) (s : State) : (s.retirePanel n).settings = s.settings := rfl
@[simp] theorem State.retirePanel_staging (n : Nat) (s : State) : (s.retirePanel n).staging = s.staging := rfl
@[simp] theorem State.retirePanel_ports (n : Nat) (s : State) : (s.retirePanel n).ports = s.ports := rfl
@[simp] theorem State.retirePanel_deliveries (n : Nat) (s : State) : (s.retirePanel n).deliveries = s.deliveries := rfl
@[simp] theorem State.retirePanel_pending (n : Nat) (s : State) : (s.retirePanel n).pending = s.pending := rfl

/-! ## State.setCompare -/

@[simp] theorem State.setCompare_powered (point : Int) (s : State) : (s.setCompare point).powered = s.powered := rfl
@[simp] theorem State.setCompare_ready (point : Int) (s : State) : (s.setCompare point).ready = s.ready := rfl
@[simp] theorem State.setCompare_startCause (point : Int) (s : State) : (s.setCompare point).startCause = s.startCause := rfl
@[simp] theorem State.setCompare_clock (point : Int) (s : State) : (s.setCompare point).clock = s.clock := rfl
@[simp] theorem State.setCompare_marks (point : Int) (s : State) : (s.setCompare point).marks = s.marks := rfl
@[simp] theorem State.setCompare_supply (point : Int) (s : State) : (s.setCompare point).supply = s.supply := rfl
@[simp] theorem State.setCompare_outputs (point : Int) (s : State) : (s.setCompare point).outputs = s.outputs := rfl
@[simp] theorem State.setCompare_register (point : Int) (s : State) : (s.setCompare point).register = s.register := rfl
@[simp] theorem State.setCompare_panels (point : Int) (s : State) : (s.setCompare point).panels = s.panels := rfl
@[simp] theorem State.setCompare_batches (point : Int) (s : State) : (s.setCompare point).batches = s.batches := rfl
@[simp] theorem State.setCompare_winch (point : Int) (s : State) : (s.setCompare point).winch = s.winch := rfl
@[simp] theorem State.setCompare_grout (point : Int) (s : State) : (s.setCompare point).grout = s.grout := rfl
@[simp] theorem State.setCompare_stress (point : Int) (s : State) : (s.setCompare point).stress = s.stress := rfl
@[simp] theorem State.setCompare_journal (point : Int) (s : State) : (s.setCompare point).journal = s.journal := rfl
@[simp] theorem State.setCompare_settings (point : Int) (s : State) : (s.setCompare point).settings = s.settings := rfl
@[simp] theorem State.setCompare_staging (point : Int) (s : State) : (s.setCompare point).staging = s.staging := rfl
@[simp] theorem State.setCompare_ports (point : Int) (s : State) : (s.setCompare point).ports = s.ports := rfl
@[simp] theorem State.setCompare_deliveries (point : Int) (s : State) : (s.setCompare point).deliveries = s.deliveries := rfl
@[simp] theorem State.setCompare_pending (point : Int) (s : State) : (s.setCompare point).pending = s.pending := rfl

/-! ## State.unsetCompare -/

@[simp] theorem State.unsetCompare_powered (s : State) : (s.unsetCompare).powered = s.powered := rfl
@[simp] theorem State.unsetCompare_ready (s : State) : (s.unsetCompare).ready = s.ready := rfl
@[simp] theorem State.unsetCompare_startCause (s : State) : (s.unsetCompare).startCause = s.startCause := rfl
@[simp] theorem State.unsetCompare_clock (s : State) : (s.unsetCompare).clock = s.clock := rfl
@[simp] theorem State.unsetCompare_marks (s : State) : (s.unsetCompare).marks = s.marks := rfl
@[simp] theorem State.unsetCompare_supply (s : State) : (s.unsetCompare).supply = s.supply := rfl
@[simp] theorem State.unsetCompare_outputs (s : State) : (s.unsetCompare).outputs = s.outputs := rfl
@[simp] theorem State.unsetCompare_register (s : State) : (s.unsetCompare).register = s.register := rfl
@[simp] theorem State.unsetCompare_panels (s : State) : (s.unsetCompare).panels = s.panels := rfl
@[simp] theorem State.unsetCompare_batches (s : State) : (s.unsetCompare).batches = s.batches := rfl
@[simp] theorem State.unsetCompare_winch (s : State) : (s.unsetCompare).winch = s.winch := rfl
@[simp] theorem State.unsetCompare_grout (s : State) : (s.unsetCompare).grout = s.grout := rfl
@[simp] theorem State.unsetCompare_stress (s : State) : (s.unsetCompare).stress = s.stress := rfl
@[simp] theorem State.unsetCompare_journal (s : State) : (s.unsetCompare).journal = s.journal := rfl
@[simp] theorem State.unsetCompare_settings (s : State) : (s.unsetCompare).settings = s.settings := rfl
@[simp] theorem State.unsetCompare_staging (s : State) : (s.unsetCompare).staging = s.staging := rfl
@[simp] theorem State.unsetCompare_ports (s : State) : (s.unsetCompare).ports = s.ports := rfl
@[simp] theorem State.unsetCompare_deliveries (s : State) : (s.unsetCompare).deliveries = s.deliveries := rfl
@[simp] theorem State.unsetCompare_pending (s : State) : (s.unsetCompare).pending = s.pending := rfl

/-! ## State.batchGone -/

@[simp] theorem State.batchGone_powered (id : Nat) (s : State) : (s.batchGone id).powered = s.powered := rfl
@[simp] theorem State.batchGone_ready (id : Nat) (s : State) : (s.batchGone id).ready = s.ready := rfl
@[simp] theorem State.batchGone_startCause (id : Nat) (s : State) : (s.batchGone id).startCause = s.startCause := rfl
@[simp] theorem State.batchGone_clock (id : Nat) (s : State) : (s.batchGone id).clock = s.clock := rfl
@[simp] theorem State.batchGone_meas (id : Nat) (s : State) : (s.batchGone id).meas = s.meas := rfl
@[simp] theorem State.batchGone_supply (id : Nat) (s : State) : (s.batchGone id).supply = s.supply := rfl
@[simp] theorem State.batchGone_outputs (id : Nat) (s : State) : (s.batchGone id).outputs = s.outputs := rfl
@[simp] theorem State.batchGone_register (id : Nat) (s : State) : (s.batchGone id).register = s.register := rfl
@[simp] theorem State.batchGone_panels (id : Nat) (s : State) : (s.batchGone id).panels = s.panels := rfl
@[simp] theorem State.batchGone_batches (id : Nat) (s : State) : (s.batchGone id).batches = s.batches := rfl
@[simp] theorem State.batchGone_winch (id : Nat) (s : State) : (s.batchGone id).winch = s.winch := rfl
@[simp] theorem State.batchGone_grout (id : Nat) (s : State) : (s.batchGone id).grout = s.grout := rfl
@[simp] theorem State.batchGone_stress (id : Nat) (s : State) : (s.batchGone id).stress = s.stress := rfl
@[simp] theorem State.batchGone_journal (id : Nat) (s : State) : (s.batchGone id).journal = s.journal := rfl
@[simp] theorem State.batchGone_settings (id : Nat) (s : State) : (s.batchGone id).settings = s.settings := rfl
@[simp] theorem State.batchGone_staging (id : Nat) (s : State) : (s.batchGone id).staging = s.staging := rfl
@[simp] theorem State.batchGone_deliveries (id : Nat) (s : State) : (s.batchGone id).deliveries = s.deliveries := rfl
@[simp] theorem State.batchGone_pending (id : Nat) (s : State) : (s.batchGone id).pending = s.pending := rfl

/-! ## State.takeBatch -/

@[simp] theorem State.takeBatch_powered (id : Nat) (s : State) : (s.takeBatch id).powered = s.powered := rfl
@[simp] theorem State.takeBatch_ready (id : Nat) (s : State) : (s.takeBatch id).ready = s.ready := rfl
@[simp] theorem State.takeBatch_startCause (id : Nat) (s : State) : (s.takeBatch id).startCause = s.startCause := rfl
@[simp] theorem State.takeBatch_clock (id : Nat) (s : State) : (s.takeBatch id).clock = s.clock := rfl
@[simp] theorem State.takeBatch_meas (id : Nat) (s : State) : (s.takeBatch id).meas = s.meas := rfl
@[simp] theorem State.takeBatch_supply (id : Nat) (s : State) : (s.takeBatch id).supply = s.supply := rfl
@[simp] theorem State.takeBatch_outputs (id : Nat) (s : State) : (s.takeBatch id).outputs = s.outputs := rfl
@[simp] theorem State.takeBatch_register (id : Nat) (s : State) : (s.takeBatch id).register = s.register := rfl
@[simp] theorem State.takeBatch_panels (id : Nat) (s : State) : (s.takeBatch id).panels = s.panels := rfl
@[simp] theorem State.takeBatch_winch (id : Nat) (s : State) : (s.takeBatch id).winch = s.winch := rfl
@[simp] theorem State.takeBatch_grout (id : Nat) (s : State) : (s.takeBatch id).grout = s.grout := rfl
@[simp] theorem State.takeBatch_stress (id : Nat) (s : State) : (s.takeBatch id).stress = s.stress := rfl
@[simp] theorem State.takeBatch_journal (id : Nat) (s : State) : (s.takeBatch id).journal = s.journal := rfl
@[simp] theorem State.takeBatch_settings (id : Nat) (s : State) : (s.takeBatch id).settings = s.settings := rfl
@[simp] theorem State.takeBatch_staging (id : Nat) (s : State) : (s.takeBatch id).staging = s.staging := rfl
@[simp] theorem State.takeBatch_deliveries (id : Nat) (s : State) : (s.takeBatch id).deliveries = s.deliveries := rfl
@[simp] theorem State.takeBatch_pending (id : Nat) (s : State) : (s.takeBatch id).pending = s.pending := rfl

/-! ## State.record -/

@[simp] theorem State.record_powered (kind : ReadingKind) (load : Nat) (disp : Int) (s : State) : (s.record kind load disp).powered = s.powered := rfl
@[simp] theorem State.record_ready (kind : ReadingKind) (load : Nat) (disp : Int) (s : State) : (s.record kind load disp).ready = s.ready := rfl
@[simp] theorem State.record_startCause (kind : ReadingKind) (load : Nat) (disp : Int) (s : State) : (s.record kind load disp).startCause = s.startCause := rfl
@[simp] theorem State.record_clock (kind : ReadingKind) (load : Nat) (disp : Int) (s : State) : (s.record kind load disp).clock = s.clock := rfl
@[simp] theorem State.record_marks (kind : ReadingKind) (load : Nat) (disp : Int) (s : State) : (s.record kind load disp).marks = s.marks := rfl
@[simp] theorem State.record_meas (kind : ReadingKind) (load : Nat) (disp : Int) (s : State) : (s.record kind load disp).meas = s.meas := rfl
@[simp] theorem State.record_supply (kind : ReadingKind) (load : Nat) (disp : Int) (s : State) : (s.record kind load disp).supply = s.supply := rfl
@[simp] theorem State.record_outputs (kind : ReadingKind) (load : Nat) (disp : Int) (s : State) : (s.record kind load disp).outputs = s.outputs := rfl
@[simp] theorem State.record_register (kind : ReadingKind) (load : Nat) (disp : Int) (s : State) : (s.record kind load disp).register = s.register := rfl
@[simp] theorem State.record_panels (kind : ReadingKind) (load : Nat) (disp : Int) (s : State) : (s.record kind load disp).panels = s.panels := rfl
@[simp] theorem State.record_batches (kind : ReadingKind) (load : Nat) (disp : Int) (s : State) : (s.record kind load disp).batches = s.batches := rfl
@[simp] theorem State.record_winch (kind : ReadingKind) (load : Nat) (disp : Int) (s : State) : (s.record kind load disp).winch = s.winch := rfl
@[simp] theorem State.record_grout (kind : ReadingKind) (load : Nat) (disp : Int) (s : State) : (s.record kind load disp).grout = s.grout := rfl
@[simp] theorem State.record_journal (kind : ReadingKind) (load : Nat) (disp : Int) (s : State) : (s.record kind load disp).journal = s.journal := rfl
@[simp] theorem State.record_settings (kind : ReadingKind) (load : Nat) (disp : Int) (s : State) : (s.record kind load disp).settings = s.settings := rfl
@[simp] theorem State.record_staging (kind : ReadingKind) (load : Nat) (disp : Int) (s : State) : (s.record kind load disp).staging = s.staging := rfl
@[simp] theorem State.record_ports (kind : ReadingKind) (load : Nat) (disp : Int) (s : State) : (s.record kind load disp).ports = s.ports := rfl
@[simp] theorem State.record_deliveries (kind : ReadingKind) (load : Nat) (disp : Int) (s : State) : (s.record kind load disp).deliveries = s.deliveries := rfl
@[simp] theorem State.record_pending (kind : ReadingKind) (load : Nat) (disp : Int) (s : State) : (s.record kind load disp).pending = s.pending := rfl

/-! ## State.recordLatest -/

@[simp] theorem State.recordLatest_powered (kind : ReadingKind) (s : State) : (s.recordLatest kind).powered = s.powered := rfl
@[simp] theorem State.recordLatest_ready (kind : ReadingKind) (s : State) : (s.recordLatest kind).ready = s.ready := rfl
@[simp] theorem State.recordLatest_startCause (kind : ReadingKind) (s : State) : (s.recordLatest kind).startCause = s.startCause := rfl
@[simp] theorem State.recordLatest_clock (kind : ReadingKind) (s : State) : (s.recordLatest kind).clock = s.clock := rfl
@[simp] theorem State.recordLatest_marks (kind : ReadingKind) (s : State) : (s.recordLatest kind).marks = s.marks := rfl
@[simp] theorem State.recordLatest_meas (kind : ReadingKind) (s : State) : (s.recordLatest kind).meas = s.meas := rfl
@[simp] theorem State.recordLatest_supply (kind : ReadingKind) (s : State) : (s.recordLatest kind).supply = s.supply := rfl
@[simp] theorem State.recordLatest_outputs (kind : ReadingKind) (s : State) : (s.recordLatest kind).outputs = s.outputs := rfl
@[simp] theorem State.recordLatest_register (kind : ReadingKind) (s : State) : (s.recordLatest kind).register = s.register := rfl
@[simp] theorem State.recordLatest_panels (kind : ReadingKind) (s : State) : (s.recordLatest kind).panels = s.panels := rfl
@[simp] theorem State.recordLatest_batches (kind : ReadingKind) (s : State) : (s.recordLatest kind).batches = s.batches := rfl
@[simp] theorem State.recordLatest_winch (kind : ReadingKind) (s : State) : (s.recordLatest kind).winch = s.winch := rfl
@[simp] theorem State.recordLatest_grout (kind : ReadingKind) (s : State) : (s.recordLatest kind).grout = s.grout := rfl
@[simp] theorem State.recordLatest_journal (kind : ReadingKind) (s : State) : (s.recordLatest kind).journal = s.journal := rfl
@[simp] theorem State.recordLatest_settings (kind : ReadingKind) (s : State) : (s.recordLatest kind).settings = s.settings := rfl
@[simp] theorem State.recordLatest_staging (kind : ReadingKind) (s : State) : (s.recordLatest kind).staging = s.staging := rfl
@[simp] theorem State.recordLatest_ports (kind : ReadingKind) (s : State) : (s.recordLatest kind).ports = s.ports := rfl
@[simp] theorem State.recordLatest_deliveries (kind : ReadingKind) (s : State) : (s.recordLatest kind).deliveries = s.deliveries := rfl
@[simp] theorem State.recordLatest_pending (kind : ReadingKind) (s : State) : (s.recordLatest kind).pending = s.pending := rfl

/-! ## State.startRamp -/

@[simp] theorem State.startRamp_powered (i : Nat) (s : State) : (s.startRamp i).powered = s.powered := rfl
@[simp] theorem State.startRamp_ready (i : Nat) (s : State) : (s.startRamp i).ready = s.ready := rfl
@[simp] theorem State.startRamp_startCause (i : Nat) (s : State) : (s.startRamp i).startCause = s.startCause := rfl
@[simp] theorem State.startRamp_clock (i : Nat) (s : State) : (s.startRamp i).clock = s.clock := rfl
@[simp] theorem State.startRamp_marks (i : Nat) (s : State) : (s.startRamp i).marks = s.marks := rfl
@[simp] theorem State.startRamp_meas (i : Nat) (s : State) : (s.startRamp i).meas = s.meas := rfl
@[simp] theorem State.startRamp_supply (i : Nat) (s : State) : (s.startRamp i).supply = s.supply := rfl
@[simp] theorem State.startRamp_outputs (i : Nat) (s : State) : (s.startRamp i).outputs = s.outputs := rfl
@[simp] theorem State.startRamp_register (i : Nat) (s : State) : (s.startRamp i).register = s.register := rfl
@[simp] theorem State.startRamp_panels (i : Nat) (s : State) : (s.startRamp i).panels = s.panels := rfl
@[simp] theorem State.startRamp_batches (i : Nat) (s : State) : (s.startRamp i).batches = s.batches := rfl
@[simp] theorem State.startRamp_winch (i : Nat) (s : State) : (s.startRamp i).winch = s.winch := rfl
@[simp] theorem State.startRamp_grout (i : Nat) (s : State) : (s.startRamp i).grout = s.grout := rfl
@[simp] theorem State.startRamp_journal (i : Nat) (s : State) : (s.startRamp i).journal = s.journal := rfl
@[simp] theorem State.startRamp_settings (i : Nat) (s : State) : (s.startRamp i).settings = s.settings := rfl
@[simp] theorem State.startRamp_staging (i : Nat) (s : State) : (s.startRamp i).staging = s.staging := rfl
@[simp] theorem State.startRamp_ports (i : Nat) (s : State) : (s.startRamp i).ports = s.ports := rfl
@[simp] theorem State.startRamp_deliveries (i : Nat) (s : State) : (s.startRamp i).deliveries = s.deliveries := rfl
@[simp] theorem State.startRamp_pending (i : Nat) (s : State) : (s.startRamp i).pending = s.pending := rfl

/-! ## State.setTripWait -/

@[simp] theorem State.setTripWait_powered (b : Bool) (s : State) : (s.setTripWait b).powered = s.powered := rfl
@[simp] theorem State.setTripWait_ready (b : Bool) (s : State) : (s.setTripWait b).ready = s.ready := rfl
@[simp] theorem State.setTripWait_startCause (b : Bool) (s : State) : (s.setTripWait b).startCause = s.startCause := rfl
@[simp] theorem State.setTripWait_clock (b : Bool) (s : State) : (s.setTripWait b).clock = s.clock := rfl
@[simp] theorem State.setTripWait_marks (b : Bool) (s : State) : (s.setTripWait b).marks = s.marks := rfl
@[simp] theorem State.setTripWait_meas (b : Bool) (s : State) : (s.setTripWait b).meas = s.meas := rfl
@[simp] theorem State.setTripWait_supply (b : Bool) (s : State) : (s.setTripWait b).supply = s.supply := rfl
@[simp] theorem State.setTripWait_outputs (b : Bool) (s : State) : (s.setTripWait b).outputs = s.outputs := rfl
@[simp] theorem State.setTripWait_register (b : Bool) (s : State) : (s.setTripWait b).register = s.register := rfl
@[simp] theorem State.setTripWait_panels (b : Bool) (s : State) : (s.setTripWait b).panels = s.panels := rfl
@[simp] theorem State.setTripWait_batches (b : Bool) (s : State) : (s.setTripWait b).batches = s.batches := rfl
@[simp] theorem State.setTripWait_winch (b : Bool) (s : State) : (s.setTripWait b).winch = s.winch := rfl
@[simp] theorem State.setTripWait_grout (b : Bool) (s : State) : (s.setTripWait b).grout = s.grout := rfl
@[simp] theorem State.setTripWait_journal (b : Bool) (s : State) : (s.setTripWait b).journal = s.journal := rfl
@[simp] theorem State.setTripWait_settings (b : Bool) (s : State) : (s.setTripWait b).settings = s.settings := rfl
@[simp] theorem State.setTripWait_staging (b : Bool) (s : State) : (s.setTripWait b).staging = s.staging := rfl
@[simp] theorem State.setTripWait_ports (b : Bool) (s : State) : (s.setTripWait b).ports = s.ports := rfl
@[simp] theorem State.setTripWait_deliveries (b : Bool) (s : State) : (s.setTripWait b).deliveries = s.deliveries := rfl
@[simp] theorem State.setTripWait_pending (b : Bool) (s : State) : (s.setTripWait b).pending = s.pending := rfl

/-! ## State.addCreep -/

@[simp] theorem State.addCreep_powered (e : CreepEntry) (s : State) : (s.addCreep e).powered = s.powered := rfl
@[simp] theorem State.addCreep_ready (e : CreepEntry) (s : State) : (s.addCreep e).ready = s.ready := rfl
@[simp] theorem State.addCreep_startCause (e : CreepEntry) (s : State) : (s.addCreep e).startCause = s.startCause := rfl
@[simp] theorem State.addCreep_clock (e : CreepEntry) (s : State) : (s.addCreep e).clock = s.clock := rfl
@[simp] theorem State.addCreep_marks (e : CreepEntry) (s : State) : (s.addCreep e).marks = s.marks := rfl
@[simp] theorem State.addCreep_meas (e : CreepEntry) (s : State) : (s.addCreep e).meas = s.meas := rfl
@[simp] theorem State.addCreep_supply (e : CreepEntry) (s : State) : (s.addCreep e).supply = s.supply := rfl
@[simp] theorem State.addCreep_outputs (e : CreepEntry) (s : State) : (s.addCreep e).outputs = s.outputs := rfl
@[simp] theorem State.addCreep_register (e : CreepEntry) (s : State) : (s.addCreep e).register = s.register := rfl
@[simp] theorem State.addCreep_panels (e : CreepEntry) (s : State) : (s.addCreep e).panels = s.panels := rfl
@[simp] theorem State.addCreep_batches (e : CreepEntry) (s : State) : (s.addCreep e).batches = s.batches := rfl
@[simp] theorem State.addCreep_winch (e : CreepEntry) (s : State) : (s.addCreep e).winch = s.winch := rfl
@[simp] theorem State.addCreep_grout (e : CreepEntry) (s : State) : (s.addCreep e).grout = s.grout := rfl
@[simp] theorem State.addCreep_journal (e : CreepEntry) (s : State) : (s.addCreep e).journal = s.journal := rfl
@[simp] theorem State.addCreep_settings (e : CreepEntry) (s : State) : (s.addCreep e).settings = s.settings := rfl
@[simp] theorem State.addCreep_staging (e : CreepEntry) (s : State) : (s.addCreep e).staging = s.staging := rfl
@[simp] theorem State.addCreep_ports (e : CreepEntry) (s : State) : (s.addCreep e).ports = s.ports := rfl
@[simp] theorem State.addCreep_deliveries (e : CreepEntry) (s : State) : (s.addCreep e).deliveries = s.deliveries := rfl
@[simp] theorem State.addCreep_pending (e : CreepEntry) (s : State) : (s.addCreep e).pending = s.pending := rfl

/-! ## State.holdImage -/

@[simp] theorem State.holdImage_powered (p : PortNo) (image : Settings) (s : State) : (s.holdImage p image).powered = s.powered := rfl
@[simp] theorem State.holdImage_ready (p : PortNo) (image : Settings) (s : State) : (s.holdImage p image).ready = s.ready := rfl
@[simp] theorem State.holdImage_startCause (p : PortNo) (image : Settings) (s : State) : (s.holdImage p image).startCause = s.startCause := rfl
@[simp] theorem State.holdImage_clock (p : PortNo) (image : Settings) (s : State) : (s.holdImage p image).clock = s.clock := rfl
@[simp] theorem State.holdImage_marks (p : PortNo) (image : Settings) (s : State) : (s.holdImage p image).marks = s.marks := rfl
@[simp] theorem State.holdImage_meas (p : PortNo) (image : Settings) (s : State) : (s.holdImage p image).meas = s.meas := rfl
@[simp] theorem State.holdImage_supply (p : PortNo) (image : Settings) (s : State) : (s.holdImage p image).supply = s.supply := rfl
@[simp] theorem State.holdImage_outputs (p : PortNo) (image : Settings) (s : State) : (s.holdImage p image).outputs = s.outputs := rfl
@[simp] theorem State.holdImage_register (p : PortNo) (image : Settings) (s : State) : (s.holdImage p image).register = s.register := rfl
@[simp] theorem State.holdImage_panels (p : PortNo) (image : Settings) (s : State) : (s.holdImage p image).panels = s.panels := rfl
@[simp] theorem State.holdImage_batches (p : PortNo) (image : Settings) (s : State) : (s.holdImage p image).batches = s.batches := rfl
@[simp] theorem State.holdImage_winch (p : PortNo) (image : Settings) (s : State) : (s.holdImage p image).winch = s.winch := rfl
@[simp] theorem State.holdImage_grout (p : PortNo) (image : Settings) (s : State) : (s.holdImage p image).grout = s.grout := rfl
@[simp] theorem State.holdImage_stress (p : PortNo) (image : Settings) (s : State) : (s.holdImage p image).stress = s.stress := rfl
@[simp] theorem State.holdImage_journal (p : PortNo) (image : Settings) (s : State) : (s.holdImage p image).journal = s.journal := rfl
@[simp] theorem State.holdImage_settings (p : PortNo) (image : Settings) (s : State) : (s.holdImage p image).settings = s.settings := rfl
@[simp] theorem State.holdImage_ports (p : PortNo) (image : Settings) (s : State) : (s.holdImage p image).ports = s.ports := rfl
@[simp] theorem State.holdImage_deliveries (p : PortNo) (image : Settings) (s : State) : (s.holdImage p image).deliveries = s.deliveries := rfl
@[simp] theorem State.holdImage_pending (p : PortNo) (image : Settings) (s : State) : (s.holdImage p image).pending = s.pending := rfl

/-! ## The fields the operations write -/

@[simp] theorem State.raise_ports (e : Event) (s : State) : (s.raise e).ports = s.ports.raise e := rfl
@[simp] theorem State.modifyPort_ports (p : PortNo) (f : Port → Port) (s : State) :
    (s.modifyPort p f).ports = s.ports.put (f (s.ports.get p)) p := rfl
@[simp] theorem State.taken_ports (p : PortNo) (code : Byte) (form : List Byte) (s : State) :
    (s.taken p code form).ports = s.ports.put (((s.ports.get p).store 0 (code :: form)).accept) p := rfl
@[simp] theorem State.answer_ports (p : PortNo) (st : Status) (data : List Byte) (s : State) :
    (s.answer p st data).ports = s.ports.put ((s.ports.get p).answer st data) p := rfl
@[simp] theorem State.send_deliveries (d : Delivery) (s : State) :
    (s.send d).deliveries = s.deliveries ++ [d] := rfl
@[simp] theorem State.claimFlow_deliveries (e : Engine) (s : State) :
    (s.claimFlow e).deliveries = s.deliveries ++ [.claim e (s.settings.demand e)] := rfl
@[simp] theorem State.releaseFlow_deliveries (e : Engine) (s : State) :
    (s.releaseFlow e).deliveries = s.deliveries ++ [.release e] := rfl
@[simp] theorem State.insertMark_marks (n : MarkName) (due : SiteTime) (s : State) :
    (s.insertMark n due).marks = placeMark ⟨due, n⟩ (dropMark n s.marks) := rfl
@[simp] theorem State.removeMark_marks (n : MarkName) (s : State) :
    (s.removeMark n).marks = dropMark n s.marks := rfl
@[simp] theorem State.modifyAnchor_register (p : Position) (f : Anchor → Anchor) (s : State) :
    (s.modifyAnchor p f).register = s.register.modify p f := rfl
@[simp] theorem State.setTripWait_stress (b : Bool) (s : State) :
    (s.setTripWait b).stress = { s.stress with tripWait := b } := rfl
@[simp] theorem State.setCompare_meas (point : Int) (s : State) :
    (s.setCompare point).meas = { s.meas with compare := some point } := rfl
@[simp] theorem State.unsetCompare_meas (s : State) :
    s.unsetCompare.meas = { s.meas with compare := none } := rfl

/-! ## One port among four -/

@[simp] theorem Ports.get_put (ps : Ports) (x : Port) (p : PortNo) : (ps.put x p).get p = x := by
  match p with | 0 => rfl | 1 => rfl | 2 => rfl | 3 => rfl

theorem Ports.get_put_other (ps : Ports) (x : Port) (p q : PortNo) (h : q ≠ p) :
    (ps.put x p).get q = ps.get q := by
  match p, q with
  | 0, 0 => exact absurd rfl h
  | 1, 1 => exact absurd rfl h
  | 2, 2 => exact absurd rfl h
  | 3, 3 => exact absurd rfl h
  | 0, 1 => rfl
  | 0, 2 => rfl
  | 0, 3 => rfl
  | 1, 0 => rfl
  | 1, 2 => rfl
  | 1, 3 => rfl
  | 2, 0 => rfl
  | 2, 1 => rfl
  | 2, 3 => rfl
  | 3, 0 => rfl
  | 3, 1 => rfl
  | 3, 2 => rfl

@[simp] theorem Ports.put_put (ps : Ports) (x y : Port) (p : PortNo) :
    (ps.put x p).put y p = ps.put y p := by
  match p with | 0 => rfl | 1 => rfl | 2 => rfl | 3 => rfl

@[simp] theorem Ports.put_get (ps : Ports) (p : PortNo) : ps.put (ps.get p) p = ps := by
  match p with | 0 => rfl | 1 => rfl | 2 => rfl | 3 => rfl

end Sys2Proof.Machine
end

