-- ==== Sys2Proof/Laws/Ops.lean ====
section
/-! SUPPORT. What each shared operation can do, said once: submissions, deliveries, expiries, marks,
duties. -/

namespace Sys2Proof.Machine

/-! ## Submissions -/

/-- A submission that the port hands on is decided by its owner, from the parameters it carries. -/
theorem submit_of_handsOn {s : State} {r : Request} (h : s.handsOn r)
    (decide : List Byte → State → Decision) :
    submit r.port r.code r.form r.access r.held decide s =
      (decide (s.given r) (s.taken r.port r.code r.form)).finish r.port := by
  obtain ⟨h1, -, h2, h3, h4, h5, h6, h7, h8⟩ := h
  have e1 : s.portOpen r.port = true := by
    simp [State.portOpen, State.acksOffset, State.acksAddress, h1, h2, h3]
  have e2 : r.form.isEmpty = false := by simpa using h4
  have e3 : ((s.taken r.port r.code r.form).ports.get r.port).role = (s.ports.get r.port).role := by
    simp [State.taken, State.modifyPort, Port.accept, Port.store]
  have e4 : portRefusal (s.taken r.port r.code r.form) r.port r.access r.held = none := by
    have e5 : (s.taken r.port r.code r.form).ready = true := h5
    have e6 : (r.held && (s.taken r.port r.code r.form).journal.settingsInFlight) = false := by
      cases hh : r.held
      · rfl
      · exact h8 hh
    simp only [portRefusal, e5, e3, e6, h7, if_neg (Nat.not_lt.mpr h6), Bool.not_true,
      Bool.false_eq_true, if_false]
  simp [submit, e1, e2, e4, State.given]

/-- A request handed on, whose owner answers at once, is replied to with that answer. -/
theorem reply_of_handed {c : Instr} {s : State} {r : Request} {ps : List Byte}
    {decide : List Byte → State → Decision} {st : Status} {data : List Byte} {f : State → State}
    (h : Handed c s r ps)
    (hx : exec c s = submit r.port r.code r.form r.access r.held decide s)
    (hd : decide ps (s.taken r.port r.code r.form) =
      .reply st data (f (s.taken r.port r.code r.form))) :
    exec c s = s.replied r st data f := by
  rw [hx, submit_of_handsOn h.2.1, h.2.2, hd]
  rfl

/-! ## Events -/

theorem State.whenPowered_pos {s : State} (h : s.powered = true) (f : State → State) :
    s.whenPowered f = f s := by
  simp [State.whenPowered, h]

theorem State.whenPowered_neg {s : State} (h : s.powered = false) (f : State → State) :
    s.whenPowered f = s := by
  simp [State.whenPowered, h]

/-- The oldest delivery among some is taken; the others keep their order. -/
theorem takeFirst_split {among : Delivery → Bool} {before after : List Delivery} {d : Delivery}
    (hb : ∀ y ∈ before, among y = false) (hd : among d = true) :
    takeFirst among (before ++ d :: after) = some (d, before ++ after) := by
  induction before with
  | nil => simp [takeFirst, hd]
  | cons y ys ih =>
    have hy : among y = false := hb y List.mem_cons_self
    have hys := ih fun z hz => hb z (List.mem_cons_of_mem y hz)
    simp [takeFirst, hy, hys]

/-- A delivery command handles the oldest delivery among those that keep their order. -/
theorem State.deliver_split {α : Type} {among : Delivery → Bool} {f : Delivery → Option α}
    {handle : α → State → State} {s : State} {before after : List Delivery} {d : Delivery} {x : α}
    (hs : s.deliveries = before ++ d :: after) (hb : ∀ y ∈ before, among y = false)
    (ha : among d = true) (hd : f d = some x) :
    s.deliver among f handle = handle x { s with deliveries := before ++ after } := by
  simp only [State.deliver, hs, takeFirst_split hb ha, hd]

/-- The same for a command that takes the oldest delivery of its kind. -/
theorem State.deliverKind_split {α : Type} {f : Delivery → Option α} {handle : α → State → State}
    {s : State} {before after : List Delivery} {d : Delivery} {x : α}
    (hs : s.deliveries = before ++ d :: after) (hb : ∀ y ∈ before, f y = none)
    (hd : f d = some x) :
    s.deliverKind f handle = handle x { s with deliveries := before ++ after } :=
  State.deliver_split hs (fun y hy => by simp [hb y hy]) (by simp [hd]) hd

/-- A delivery command either handles a delivery that is in flight or changes nothing. -/
theorem State.deliver_cases {α : Type} (among : Delivery → Bool) (f : Delivery → Option α)
    (handle : α → State → State) (s : State) :
    s.deliver among f handle = s ∨
      ∃ x rest, s.deliver among f handle = handle x { s with deliveries := rest } := by
  unfold State.deliver
  split
  · split
    · exact .inr ⟨_, _, rfl⟩
    · exact .inl rfl
  · exact .inl rfl

/-! ## Expiries -/

/-- A due head mark that a command accepts leaves the list and is handled by its owner. -/
theorem State.expireHead_due {f : MarkName → Bool} {s : State} {m : Mark} {rest : List Mark}
    (hs : s.marks = m :: rest) (hd : m.due ≤ s.clock.time) (hf : f m.name = true) :
    s.expireHead f = State.expired m.name { s with marks := rest } := by
  have hn : m.due ≤ s.now := hd
  simp only [State.expireHead, hs, hn, hf, and_self, if_true]

/-- An expiry command either handles the due head or changes nothing. -/
theorem State.expireHead_cases (f : MarkName → Bool) (s : State) :
    s.expireHead f = s ∨
      ∃ m rest, s.marks = m :: rest ∧ m.due ≤ s.clock.time ∧ f m.name = true ∧
        s.expireHead f = State.expired m.name { s with marks := rest } := by
  unfold State.expireHead
  split
  · exact .inl rfl
  · rename_i m rest hm
    split
    · rename_i h
      exact .inr ⟨m, rest, hm, h.1, h.2, rfl⟩
    · exact .inl rfl

/-- With no mark due nothing expires. -/
theorem State.expireHeads_noneDue {s : State} (h : s.noneDue = true) (n : Nat) :
    s.expireHeads n = s := by
  cases n with
  | zero => rfl
  | succ n => simp [State.expireHeads, h]

/-- With no mark due a command finds the state as it is. -/
@[simp] theorem State.expireDue_noneDue {s : State} (h : s.noneDue = true) : s.expireDue = s := by
  simp [State.expireDue, State.whenPowered, State.expireHeads_noneDue h]

/-- A part without main supply expires nothing. -/
@[simp] theorem State.expireDue_unpowered {s : State} (h : s.powered = false) : s.expireDue = s := by
  simp [State.expireDue, State.whenPowered, h]

/-- The head's due time decides whether a mark is due. -/
theorem State.noneDue_cons {s : State} {m : Mark} {rest : List Mark} (h : s.marks = m :: rest) :
    s.noneDue = decide (s.clock.time < m.due) := by
  rw [State.noneDue, h]
  rfl

end Sys2Proof.Machine
end

