-- ==== Sys2Proof/Laws/Keeps.lean ====
section
/-! SUPPORT. Properties that every command keeps: what a property of the guarded part of the state must
survive, and the proof, once, that it then survives the commands. -/

namespace Sys2Proof.Machine

/-! ## What a property must survive -/

/-- The part of the state that the whole-machine properties speak of. -/
structure Guarded where
  powered : Bool
  ready : Bool
  startCause : StartCause
  marks : List Mark
  supply : Supply
  outputs : Outputs
  register : Register
  panels : List Panel
  journal : Journal
  settings : Settings
  staging : Option Staging
  ports : Ports
  pending : List Instr

/-- The guarded part of a state. -/
def State.guarded (s : State) : Guarded where
  powered := s.powered
  ready := s.ready
  startCause := s.startCause
  marks := s.marks
  supply := s.supply
  outputs := s.outputs
  register := s.register
  panels := s.panels
  journal := s.journal
  settings := s.settings
  staging := s.staging
  ports := s.ports
  pending := s.pending

/-- What a transition of the register may do to a record: its position stays, a LOCKED one stays as it
is, and the bound of its test count is kept (R7, R10). -/
def Anchor.Moves (a b : Anchor) : Prop :=
  b.pos = a.pos ∧ (a.state = .locked → b = a) ∧ (a.testSound = true → b.testSound = true)

/-- What an operation on a port's mailbox, flags, mask and cursor keeps (R181, R183). -/
def Port.Moves (q r : Port) : Prop :=
  r.role = q.role ∧ (q.mailSound = true → r.mailSound = true) ∧
    (q.flagsSound = true → r.flagsSound = true)

/-- What a change of a panel record keeps (R74). -/
def Panel.Moves (x y : Panel) : Prop :=
  (∀ r, x.reading = some r → -3000 ≤ r.1 ∧ r.1 ≤ 3000) →
    ∀ r, y.reading = some r → -3000 ≤ r.1 ∧ r.1 ≤ 3000

/-- A property of the guarded part that survives each shared operation on it. -/
structure Keeps (P : State → Prop) : Prop where
  free : ∀ {s t : State}, P s → t.guarded = s.guarded → P t
  insertMark : ∀ {s : State} (n : MarkName) (due : SiteTime), P s → P (s.insertMark n due)
  dropMarks : ∀ {s : State} (f : Mark → Bool), P s → P { s with marks := s.marks.filter f }
  headMark : ∀ {s : State} {m : Mark} {rest : List Mark}, P s → s.marks = m :: rest →
    P { s with marks := rest }
  duty : ∀ {s : State} (e : Engine) (v : Valve) (d : Nat), P s → P (s.writeDuty e v d)
  period : ∀ {s : State} (v : Valve) (hz : Nat), P s →
    P { s with outputs := s.outputs.modify v (Output.period hz) }
  claim : ∀ {s : State} (e : Engine) (d : Nat), P s → s.supply.latched = false →
    (s.supply.flowOf e).status = .none → P (s.acceptClaim e d)
  release : ∀ {s : State} (e : Engine), P s → P (s.acceptRelease e)
  line : ∀ {s : State} (b : Bool), P s → P { s with supply := { s.supply with lineAsserted := b } }
  trip : ∀ {s : State}, P s → s.supply.latched = false → P s.latchTrip
  clear : ∀ {s : State}, P s → P s.clearLatch
  raise : ∀ {s : State} (e : Event), P s → P (s.raise e)
  port : ∀ {s : State} (p : PortNo) (f : Port → Port), P s → (∀ q : Port, q.Moves (f q)) →
    P (s.modifyPort p f)
  records : ∀ {s : State} (f : Anchor → Anchor), P s → (∀ a : Anchor, a.Moves (f a)) →
    P { s with register := { s.register with records := s.register.records.map f } }
  found : ∀ {s : State} {p : Position} {a : Anchor} (f : Anchor → Anchor), P s →
    s.register.find p = some a → a.Moves (f a) →
    P { s with register := s.register.modify p f }
  slot : ∀ {s : State} (x : Option PendingCertificate), P s →
    P { s with register := { s.register with slot := x } }
  declare : ∀ {s : State} {pos : Position} (d : Design), P s → s.register.find pos = none →
    pos.valid = true → s.register.records.length < Config.maxRecords →
    P { s with register := { s.register with
      records := insertRecord (.declared pos d) s.register.records } }
  withdraw : ∀ {s : State} {p : Position} {a : Anchor}, P s → s.register.find p = some a →
    a.state = .declared → P { s with register := s.register.remove p }
  panel : ∀ {s : State} (n : Nat) (f : Panel → Panel), P s → (∀ x : Panel, x.Moves (f x)) →
    P (s.modifyPanel n f)
  ask : ∀ {s : State} (kind : EntryKind) (record : List Byte) (asker : Asker), P s →
    P { s with journal := s.journal.ask kind record asker }
  settle : ∀ {s : State} {a : Append} (run : AppendRun), P s → s.journal.inFlight = some a →
    P { s with journal := (s.journal.append a run).settle }
  stage : ∀ {s : State} (p : PortNo) (pairs : List (Nat × Nat)), P s →
    (∀ x ∈ pairs, 1 ≤ x.1 ∧ x.1 ≤ 43) → P (s.holdImage p (stagePairs s.image pairs).image)
  profile : ∀ {s : State} (p : PortNo) (n : Nat) (steps : List Step), P s →
    P (s.holdImage p (s.image.putProfile n steps))
  unstage : ∀ {s : State}, P s → P { s with staging := none }

/-- The state an outcome leaves, if it leaves one, has a property. -/
def After (P : State → Prop) : Host.Outcome State Fault Refusal → Prop
  | .next t => P t
  | .fault _ => True
  | .refused _ => True

/-- The state a decision leaves, if it leaves one, has a property. -/
def Decision.After (P : State → Prop) : Decision → Prop
  | .reply _ _ t => P t
  | .busy t => P t

variable {P : State → Prop} {s : State}

namespace Keeps

/-! ## The operations that every block shares -/

theorem powered (h : P s) {f : State → State} (hf : ∀ u : State, P u → P (f u)) :
    P (s.whenPowered f) := by
  unfold State.whenPowered
  split
  · exact hf s h
  · exact h

theorem send (k : Keeps P) (d : Delivery) (h : P s) : P (s.send d) := k.free h rfl

theorem deliver (k : Keeps P) {α : Type} {among : Delivery → Bool} {f : Delivery → Option α}
    {handle : α → State → State} (h : P s) (hh : ∀ x u, P u → P (handle x u)) :
    P (s.deliver among f handle) := by
  rcases State.deliver_cases among f handle s with e | ⟨x, rest, e⟩
  · rw [e]; exact h
  · rw [e]; exact hh x _ (k.free h rfl)

theorem removeMark (k : Keeps P) (n : MarkName) (h : P s) : P (s.removeMark n) := k.dropMarks _ h

theorem anchor (k : Keeps P) (p : Position) {f : Anchor → Anchor} (h : P s)
    (hf : ∀ a : Anchor, a.Moves (f a)) : P (s.modifyAnchor p f) := by
  refine k.records (fun a => if a.pos = p then f a else a) h fun a => ?_
  show a.Moves (if a.pos = p then f a else a)
  split
  · exact hf a
  · exact ⟨rfl, fun _ => rfl, id⟩

/-! ## The register's transitions -/

theorem anchor_testSound_iff (a : Anchor) : a.testSound = true ↔ a.testPart.count ≤ 4 ∧
    (a.state = .testing → a.testPart.count ≤ 3 ∧
      (a.returnState = .grouted ∨ a.returnState = .failed)) ∧
    (a.state = .grouting →
      a.returnState = .grouting ∨ a.returnState = .short ∨ a.returnState = .failed) := by
  unfold Anchor.testSound
  cases a.state <;> simp [or_assoc]

theorem moves_placed (x : Int) (t j : Nat) (a : Anchor) : a.Moves (a.placed x t j) := by
  unfold Anchor.placed
  split
  · rename_i e
    refine ⟨rfl, fun h => by simp [e] at h, fun h => ?_⟩
    rw [anchor_testSound_iff] at h ⊢
    exact ⟨h.1, by simp, by simp⟩
  · exact ⟨rfl, fun _ => rfl, id⟩

theorem moves_placingAborted (j : Nat) (a : Anchor) : a.Moves (a.placingAborted j) := by
  unfold Anchor.placingAborted
  split
  · rename_i e
    refine ⟨rfl, fun h => by simp [e] at h, fun h => ?_⟩
    rw [anchor_testSound_iff] at h ⊢
    exact ⟨h.1, by simp, by simp⟩
  · exact ⟨rfl, fun _ => rfl, id⟩

theorem moves_groutEnded (r : GroutReport) (a : Anchor) : a.Moves (a.groutEnded r) := by
  unfold Anchor.groutEnded
  split
  · rename_i e
    refine ⟨rfl, fun h => by simp [e] at h, fun h => ?_⟩
    rw [anchor_testSound_iff] at h ⊢
    have hr := h.2.2 e
    have hs : a.afterGrout r.mode (groutSuccess r.mode r.outcome r.volume a.design.groutVolume) =
        .grouted ∨ a.afterGrout r.mode
          (groutSuccess r.mode r.outcome r.volume a.design.groutVolume) = .short ∨
        a.afterGrout r.mode (groutSuccess r.mode r.outcome r.volume a.design.groutVolume) =
          .grouting ∨ a.afterGrout r.mode
          (groutSuccess r.mode r.outcome r.volume a.design.groutVolume) = .failed := by
      unfold Anchor.afterGrout
      split
      · exact .inl rfl
      · split
        · exact .inr (.inl rfl)
        · rcases hr with hr | hr | hr <;> simp [hr]
    refine ⟨h.1, fun hx => ?_, fun hx => .inl ?_⟩
    · rcases hs with hs | hs | hs | hs <;> exact absurd (hs.symm.trans hx) (by simp)
    · simpa [Anchor.returnState] using hx
  · exact ⟨rfl, fun _ => rfl, id⟩

theorem moves_testAborted (c : TestCode) (b : Bool) (i : Option Int) (a : Anchor) :
    a.Moves (a.testAborted c b i) := by
  unfold Anchor.testAborted
  split
  · rename_i e
    refine ⟨rfl, fun h => by simp [e] at h, fun h => ?_⟩
    rw [anchor_testSound_iff] at h ⊢
    obtain ⟨hc, hr⟩ := h.2.1 e
    refine ⟨?_, fun hx => ?_, fun hx => ?_⟩
    · show (if b = true then a.testPart.count + 1 else a.testPart.count) ≤ 4
      split <;> omega
    · rcases hr with hr | hr <;> simp [hr] at hx
    · rcases hr with hr | hr <;> simp [hr] at hx
  · exact ⟨rfl, fun _ => rfl, id⟩

theorem moves_certified (c : PendingCertificate) (i : Option Nat) (a : Anchor) :
    a.Moves (a.certified c i) := by
  unfold Anchor.certified
  split
  · rename_i e
    refine ⟨rfl, fun h => by simp [e] at h, fun h => ?_⟩
    rw [anchor_testSound_iff] at h ⊢
    refine ⟨?_, fun hx => ?_, fun hx => ?_⟩
    · have := h.1
      unfold Anchor.testPart at this ⊢
      cases ht : a.test <;> simp_all
    · cases hl : c.result.locks <;> simp [hl] at hx
    · cases hl : c.result.locks <;> simp [hl] at hx
  · exact ⟨rfl, fun _ => rfl, id⟩

theorem moves_fixUp (t : Option Nat) (a : Anchor) : a.Moves (a.fixUp t) := by
  unfold Anchor.fixUp
  split
  · rename_i e
    refine ⟨rfl, fun h => by simp [e] at h, fun h => ?_⟩
    rw [anchor_testSound_iff] at h ⊢
    exact ⟨h.1, by simp, by simp⟩
  · rename_i e
    split
    · refine ⟨rfl, fun h => by simp [e] at h, fun h => ?_⟩
      rw [anchor_testSound_iff] at h ⊢
      exact ⟨h.1, by simp, by simp⟩
    · refine ⟨rfl, fun h => by simp [e] at h, fun h => ?_⟩
      rw [anchor_testSound_iff] at h ⊢
      have hr := h.2.2 e
      refine ⟨h.1, fun hx => ?_, fun hx => .inl ?_⟩
      · rcases hr with hr | hr | hr <;> simp [hr] at hx
      · simpa [Anchor.returnState] using hx
  · rename_i e
    refine ⟨rfl, fun h => by simp [e] at h, fun h => ?_⟩
    rw [anchor_testSound_iff] at h ⊢
    obtain ⟨hc, hr⟩ := h.2.1 e
    refine ⟨Nat.succ_le_succ hc, fun hx => ?_, fun hx => ?_⟩
    · rcases hr with hr | hr <;> simp [hr] at hx
    · rcases hr with hr | hr <;> simp [hr] at hx
  · exact ⟨rfl, fun _ => rfl, id⟩

theorem moves_abandoned (a : Anchor) (h : a.abandonable = true) :
    a.Moves { a with state := .abandoned } := by
  refine ⟨rfl, fun e => ?_, fun hs => ?_⟩
  · simp [Anchor.abandonable, e] at h
  · rw [anchor_testSound_iff] at hs ⊢
    exact ⟨hs.1, by simp, by simp⟩

theorem moves_startWork_placing (a : Anchor) (op : WorkOp) (r : Option AnchorState) (t : Nat)
    (h : a.state ≠ .locked) : a.Moves (a.startWork .placing op r t) := by
  refine ⟨rfl, fun e => absurd e h, fun hs => ?_⟩
  rw [anchor_testSound_iff] at hs ⊢
  exact ⟨hs.1, by simp [Anchor.startWork], by simp [Anchor.startWork]⟩

theorem moves_startWork_grouting (a : Anchor) (mode : GroutMode) (t : Nat)
    (h : mode.fits a.state = true) :
    a.Moves (a.startWork .grouting (groutWork mode a.state).1 (groutWork mode a.state).2 t) := by
  refine ⟨rfl, fun e => ?_, fun hs => ?_⟩
  · rw [e] at h
    cases mode <;> simp [GroutMode.fits] at h
  · rw [anchor_testSound_iff] at hs ⊢
    refine ⟨hs.1, by simp [Anchor.startWork], fun _ => ?_⟩
    cases mode <;> cases he : a.state <;>
      simp [he, GroutMode.fits, Anchor.startWork, Anchor.returnState, groutWork] at h ⊢

theorem moves_startWork_testing (a : Anchor) (t : Nat)
    (h : a.state = .grouted ∨ a.state = .failed) (hc : ¬ 4 ≤ a.testCount) :
    a.Moves (a.startWork .testing .test (some a.state) t) := by
  refine ⟨rfl, fun e => ?_, fun hs => ?_⟩
  · rcases h with h | h <;> simp [h] at e
  · rw [anchor_testSound_iff] at hs ⊢
    refine ⟨hs.1, fun _ => ⟨?_, ?_⟩, by simp [Anchor.startWork]⟩
    · show a.testPart.count ≤ 3
      simp only [Anchor.testCount] at hc
      omega
    · simpa [Anchor.startWork, Anchor.returnState] using h

theorem moves_testEvaluated (r : TestCode) (c : Option Int) (l : Option Nat) (a : Anchor)
    (h : a.state = .testing) : a.Moves (a.testEvaluated r c l) := by
  refine ⟨rfl, fun e => by simp [h] at e, fun hs => ?_⟩
  rw [anchor_testSound_iff] at hs ⊢
  exact ⟨Nat.succ_le_succ (hs.2.1 h).1, by simp [Anchor.testEvaluated],
    by simp [Anchor.testEvaluated]⟩

/-! ## The ports -/

theorem moves_raise (e : Event) (q : Port) : q.Moves (q.raise e) := by
  refine ⟨rfl, id, ?_⟩
  unfold Port.flagsSound Port.raise
  by_cases hq : q.role = .disabled <;> simp [hq]

theorem moves_accept (q : Port) : q.Moves q.accept := by
  refine ⟨rfl, fun h => ?_, id⟩
  unfold Port.mailSound at h ⊢
  simp only [Bool.and_eq_true, beq_iff_eq] at h ⊢
  simp only [Port.accept, List.length_append, List.length_take, List.length_cons,
    List.length_replicate, h.1, byteAt]
  refine ⟨rfl, ?_⟩
  rw [List.getD_append_right _ _ _ _ (by simp [h.1])]
  simp [h.1, MailState.code]

theorem moves_answer (st : Status) (data : List Byte) (q : Port) : q.Moves (q.answer st data) := by
  refine ⟨rfl, fun h => ?_, id⟩
  unfold Port.mailSound at h ⊢
  simp only [Bool.and_eq_true, beq_iff_eq] at h ⊢
  simp only [Port.answer, List.length_append, List.length_take, List.length_cons,
    fitBytes_length, h.1, byteAt]
  refine ⟨rfl, ?_⟩
  rw [List.getD_append_right _ _ _ _ (by simp [h.1])]
  simp [h.1, MailState.code]

theorem length_store (off : Nat) (bs : List Byte) (q : Port) (h : q.mem.length = 256) :
    (q.store off bs).mem.length = 256 := by
  simp only [Port.store, List.length_append, List.length_take, List.length_drop, h]
  omega

theorem byteAt_store (off i : Nat) (bs : List Byte) (q : Port) (h : q.mem.length = 256)
    (hi : 128 ≤ i) : byteAt (q.store off bs).mem i = byteAt q.mem i := by
  have hl : (q.mem.take off ++ bs.take (128 - off)).length ≤ i ∨ i < off := by
    simp only [List.length_append, List.length_take, h]
    omega
  unfold byteAt Port.store
  simp only []
  rcases Nat.lt_or_ge off 128 with ho | ho
  · rw [List.getD_append_right _ _ _ _ (by simp [h]; omega)]
    simp only [List.getD_eq_getElem?_getD, List.getElem?_drop, List.length_append,
      List.length_take, h]
    congr 3
    omega
  · have e : 128 - off = 0 := by omega
    simp [e, List.take_append_drop]

theorem moves_store (off : Nat) (bs : List Byte) (q : Port) : q.Moves (q.store off bs) := by
  refine ⟨rfl, fun h => ?_, id⟩
  unfold Port.mailSound at h ⊢
  simp only [Bool.and_eq_true, beq_iff_eq] at h ⊢
  refine ⟨length_store off bs q h.1, ?_⟩
  rw [byteAt_store off 128 bs q h.1 (by omega)]
  exact h.2

theorem moves_trans {q r x : Port} (h : q.Moves r) (g : r.Moves x) : q.Moves x :=
  ⟨g.1.trans h.1, fun m => g.2.1 (h.2.1 m), fun m => g.2.2 (h.2.2 m)⟩

theorem taken (k : Keeps P) (p : PortNo) (code : Byte) (form : List Byte) (h : P s) :
    P (s.taken p code form) :=
  k.port p _ h fun q => moves_trans (moves_store 0 (code :: form) q) (moves_accept _)

theorem answer (k : Keeps P) (p : PortNo) (st : Status) (data : List Byte) (h : P s) :
    P (s.answer p st data) := k.port p _ h (moves_answer st data)

theorem storeAt (k : Keeps P) (p : PortNo) (off : Nat) (bs : List Byte) (h : P s) :
    P (s.storeAt p off bs) := by
  unfold State.storeAt
  split
  · exact k.port p _ h (moves_store off bs)
  · exact h

theorem finish (k : Keeps P) (p : PortNo) {d : Decision} (h : d.After P) :
    After P (d.finish p) := by
  cases d with
  | reply st data t => exact k.answer p st data h
  | busy t => exact h

/-- A submission keeps what its owner's decision keeps. -/
theorem submit (k : Keeps P) {p : PortNo} {code : Byte} {form : List Byte} {acc : Access}
    {held : Bool} {decide : List Byte → State → Decision}
    (hd : ∀ ps u, P u → (decide ps u).After P) (h : P s) :
    After P (Machine.submit p code form acc held decide s) := by
  unfold Machine.submit
  split
  · exact h
  · split
    · exact k.storeAt p 0 [code] h
    · split
      · exact k.answer p _ _ (k.taken p code form h)
      · exact k.finish p (hd _ _ (k.taken p code form h))

theorem submitUnknown (k : Keeps P) (p : PortNo) (code : Byte) (form : List Byte) (h : P s) :
    After P (Machine.submitUnknown p code form s) := by
  unfold Machine.submitUnknown
  split
  · exact h
  · split
    · exact k.storeAt p 0 [code] h
    · exact k.answer p _ _ (k.taken p code form h)

/-! ## The register's requests and the clock's -/

theorem declared (k : Keeps P) (ps : List Byte) (h : P s) : (decideDeclare ps s).After P := by
  unfold decideDeclare
  split
  · exact h
  · split
    · exact h
    · rename_i hr
      split
      · exact h
      · rename_i hn
        split
        · exact h
        · rename_i hl
          have hv : (positionAt ps 0).valid = true := by
            by_contra hc
            rw [Bool.not_eq_true] at hc
            rw [declareOutOfRange, List.findIdx?_cons, hc] at hr
            simp at hr
          exact k.declare _ h (by simpa using hn) hv (by omega)

theorem withdrawn (k : Keeps P) (ps : List Byte) (h : P s) : (decideWithdraw ps s).After P := by
  unfold decideWithdraw
  split
  · exact h
  · split
    · exact h
    · split
      · exact h
      · rename_i a ha
        split
        · exact h
        · rename_i hs
          exact k.withdraw h ha (by simpa using hs)

theorem abandoned (k : Keeps P) (ps : List Byte) (h : P s) : (decideAbandon ps s).After P := by
  unfold decideAbandon
  split
  · exact h
  · split
    · exact h
    · split
      · exact h
      · rename_i a ha
        split
        · rename_i hs
          exact k.found (fun x => { x with state := .abandoned }) h ha (moves_abandoned a hs)
        · exact h

theorem cursorSet (k : Keeps P) (p : PortNo) (c : Option Position) (h : P s) :
    P (s.setCursor p c) := k.port p _ h fun _ => ⟨rfl, id, id⟩

theorem sought (k : Keeps P) (p : PortNo) (ps : List Byte) (h : P s) :
    (decideSeek p ps s).After P := by
  unfold decideSeek
  split
  · exact k.cursorSet p _ h
  · split
    · exact h
    · split
      · exact h
      · exact k.cursorSet p _ h

theorem nexted (k : Keeps P) (p : PortNo) (ps : List Byte) (h : P s) :
    (decideNext p ps s).After P := by
  unfold decideNext
  split
  · exact h
  · split
    · exact k.cursorSet p _ h
    · exact h

theorem inspected (ps : List Byte) (h : P s) : (decideInspect ps s).After P := by
  unfold decideInspect
  split
  · exact h
  · split
    · exact h
    · split <;> exact h

theorem timeSet (k : Keeps P) (ps : List Byte) (h : P s) : (decideSetTime ps s).After P := by
  unfold decideSetTime
  split
  · exact h
  · split
    · exact h
    · exact k.free h rfl

theorem timeShifted (k : Keeps P) (ps : List Byte) (h : P s) : (decideShiftTime ps s).After P := by
  unfold decideShiftTime
  split
  · exact h
  · split
    · exact h
    · split
      · exact h
      · exact k.free h rfl

theorem panelsRead (ps : List Byte) (h : P s) : (decideReadPanels ps s).After P := by
  unfold decideReadPanels
  split
  · exact h
  · split <;> exact h

theorem journalRead (ps : List Byte) (h : P s) : (decideReadJournal ps s).After P := by
  unfold decideReadJournal
  split
  · exact h
  · split
    · exact h
    · simp only []
      split <;> exact h

theorem eventsRead (p : PortNo) (ps : List Byte) (h : P s) : (decideReadEvents p ps s).After P := by
  unfold decideReadEvents
  split <;> exact h

theorem eventsCleared (k : Keeps P) (p : PortNo) (ps : List Byte) (h : P s) :
    (decideClearEvents p ps s).After P := by
  unfold decideClearEvents
  split
  · exact h
  · refine k.port p _ h fun q => ⟨rfl, id, fun hq => ?_⟩
    simp only [Port.flagsSound, Port.clearFlags, Bool.or_eq_true, bne_iff_ne, beq_iff_eq] at hq ⊢
    rcases hq with hq | hq
    · exact .inl hq
    · exact .inr (by simp [hq])

theorem maskSet (k : Keeps P) (p : PortNo) (ps : List Byte) (h : P s) :
    (decideSetMask p ps s).After P := by
  unfold decideSetMask
  split
  · exact h
  · exact k.port p _ h fun q => ⟨rfl, id, id⟩

theorem statusRead (ps : List Byte) (h : P s) : (decidePartStatus ps s).After P := by
  unfold decidePartStatus
  split
  · exact h
  · split <;> exact h

theorem tripCleared (k : Keeps P) (ps : List Byte) (h : P s) : (decideClearTrip ps s).After P := by
  unfold decideClearTrip
  split
  · exact h
  · split
    · exact h
    · split
      · exact k.clear h
      · exact h

/-! ## The winch engine -/

theorem onWinchAnchor (k : Keeps P) {f : Anchor → Anchor} (h : P s)
    (hf : ∀ a : Anchor, a.Moves (f a)) : P (s.onWinchAnchor f) := by
  unfold State.onWinchAnchor
  split
  · exact k.anchor _ h hf
  · exact h

theorem winchStarted (k : Keeps P) (ps : List Byte) (h : P s) : (decideStartWinch ps s).After P := by
  unfold decideStartWinch
  split
  · exact h
  · split
    · exact h
    · split
      · exact h
      · rename_i a ha
        split
        · exact h
        · rename_i hs
          split
          · exact h
          · split
            · exact h
            · split
              · exact h
              · have hd : a.state = .declared := by simpa using hs
                exact k.free (k.found _ h ha
                  (moves_startWork_placing a .place none s.nowSeconds (by simp [hd]))) rfl

theorem stopJamTiming (k : Keeps P) (h : P s) : P s.stopJamTiming := by
  unfold State.stopJamTiming
  split
  · exact k.removeMark _ (k.free h rfl)
  · exact h

theorem stopWinch (k : Keeps P) (r : StopReason) (h : P s) : P (s.stopWinch r) :=
  k.raise _ (k.free (k.stopJamTiming (k.duty _ _ _ h)) rfl)

theorem winchTrip (k : Keeps P) (h : P s) : P s.winchTrip := by
  unfold State.winchTrip
  split <;> first | exact h | exact k.stopWinch _ h

theorem winchEncoderFault (k : Keeps P) (h : P s) : P s.winchEncoderFault := by
  unfold State.winchEncoderFault
  split <;> first | exact h | exact k.stopWinch _ h

theorem winchGrant (k : Keeps P) (h : P s) : P s.winchGrant := by
  unfold State.winchGrant
  split
  · split <;> exact k.duty _ _ _ (k.free h rfl)
  · exact h

theorem completePlacement (k : Keeps P) (x : Int) (h : P s) : P (s.completePlacement x) :=
  k.raise _ (k.free
    (k.onWinchAnchor (k.send _ (k.stopJamTiming (k.duty _ _ _ h))) (moves_placed _ _ _)) rfl)

theorem jamCheck (k : Keeps P) (x : Sample) (h : P s) : P (s.jamCheck x) := by
  unfold State.jamCheck
  split
  · split
    · exact h
    · exact k.insertMark _ _ (k.free h rfl)
  · exact k.stopJamTiming h

theorem enterSlow (k : Keeps P) (x : Int) (h : P s) : P (s.enterSlow x) := by
  unfold State.enterSlow
  split
  · exact k.duty _ _ _ (k.free h rfl)
  · exact h

theorem winchSample (k : Keeps P) (x : Sample) (paid : Int) (h : P s) :
    P (s.winchSample x paid) := by
  unfold State.winchSample
  split
  · exact h
  · simp only []
    split
    · split
      · exact k.completePlacement _ (k.free h rfl)
      · exact k.jamCheck _ (k.enterSlow _ (k.free h rfl))
    · exact k.free h rfl

theorem winchJam (k : Keeps P) (h : P s) : P s.winchJam := by
  unfold State.winchJam
  split
  · exact k.stopWinch _ (k.free h rfl)
  · exact h

theorem winchContinued (k : Keeps P) (ps : List Byte) (h : P s) :
    (decideContinueWinch ps s).After P := by
  unfold decideContinueWinch
  split
  · exact h
  · split
    · exact h
    · split
      · exact h
      · split
        · exact h
        · exact k.free h rfl

theorem winchAborted (k : Keeps P) (ps : List Byte) (h : P s) : (decideAbortWinch ps s).After P := by
  unfold decideAbortWinch
  split
  · exact h
  · split
    · exact h
    · exact k.free (k.onWinchAnchor (k.send _ (k.stopJamTiming (k.duty _ _ _ h)))
        (moves_placingAborted _)) rfl

/-! ## The grout engine and the batch queue -/

theorem groutWait (k : Keeps P) (h : P s) : P s.groutWait := by
  unfold State.groutWait
  split <;> exact k.free h rfl

theorem groutStarted (k : Keeps P) (ps : List Byte) (h : P s) : (decideStartGrout ps s).After P := by
  unfold decideStartGrout
  split
  · exact h
  · split
    · exact h
    · rename_i mode _
      split
      · exact h
      · split
        · exact h
        · rename_i a ha
          split
          · exact h
          · rename_i hf
            split
            · exact h
            · split
              · exact h
              · split
                · exact h
                · split
                  · exact h
                  · split
                    · exact h
                    · exact k.groutWait (k.free (k.found _ h ha
                        (moves_startWork_grouting a mode s.nowSeconds (by simpa using hf))) rfl)

theorem timeBreak (k : Keeps P) (h : P s) : P s.timeBreak := by
  unfold State.timeBreak
  split
  · exact k.insertMark _ _ h
  · exact h

theorem reportGrout (k : Keeps P) (o : GroutOutcome) (h : P s) : P (s.reportGrout o) := by
  unfold State.reportGrout
  split
  · exact k.anchor _ h (moves_groutEnded _)
  · exact h

theorem endGrout (k : Keeps P) (o : GroutOutcome) (h : P s) : P (s.endGrout o) :=
  k.raise _ (k.free (k.reportGrout _ (k.send _ (k.removeMark _ (k.removeMark _
    (k.duty _ _ _ h))))) rfl)

theorem pauseGrout (k : Keeps P) (r : PauseReason) (h : P s) : P (s.pauseGrout r) :=
  k.raise _ (k.timeBreak (k.free (k.removeMark _ (k.duty _ _ _ h)) rfl))

theorem groutArrival (k : Keeps P) (h : P s) : P s.groutArrival := by
  unfold State.groutArrival
  split
  · exact k.free h rfl
  · exact h

theorem pump (k : Keeps P) (h : P s) : P s.pump :=
  k.removeMark _ (k.duty _ _ _ (k.free h rfl))

theorem groutGrant (k : Keeps P) (h : P s) : P s.groutGrant := by
  unfold State.groutGrant
  split
  · exact k.pump h
  · exact h

theorem groutTrip (k : Keeps P) (h : P s) : P s.groutTrip := by
  unfold State.groutTrip
  split
  · exact h
  · exact k.pauseGrout _ h

theorem batchGone (k : Keeps P) (id : Nat) (h : P s) : P (s.batchGone id) :=
  k.raise _ (k.removeMark _ h)

theorem batchesGone (k : Keeps P) (ids : List Nat) (h : P s) :
    P (ids.foldl (fun t id => t.batchGone id) s) := by
  induction ids generalizing s with
  | nil => exact h
  | cons id rest ih => exact ih (k.batchGone id h)

theorem groutLoseQueue (k : Keeps P) (h : P s) : P s.groutLoseQueue :=
  k.timeBreak (k.free h rfl)

theorem groutStroke (k : Keeps P) (h : P s) : P s.groutStroke := by
  unfold State.groutStroke
  split
  · exact h
  · have hc : P s.countStroke := k.batchesGone _ (k.free h rfl)
    unfold State.afterStroke
    split
    · exact k.endGrout _ hc
    · split
      · exact k.pauseGrout _ hc
      · split
        · exact k.groutLoseQueue hc
        · exact k.timeBreak hc

theorem groutRemoval (k : Keeps P) (h : P s) : P s.groutRemoval := by
  unfold State.groutRemoval
  split
  · exact k.pauseGrout _ h
  · split
    · exact k.groutLoseQueue h
    · exact h

theorem groutPressure (k : Keeps P) (x : Sample) (h : P s) : P (s.groutPressure x) := by
  unfold State.groutPressure
  split
  · exact k.raise _ (k.pauseGrout _ h)
  · split
    · split
      · exact k.insertMark _ _ (k.duty _ _ _ (k.free h rfl))
      · exact h
    · split
      · split
        · unfold State.leaveRefusal
          simp only []
          split
          · exact k.pauseGrout _ (k.removeMark _ h)
          · exact k.pump (k.removeMark _ h)
        · exact h
      · exact h

theorem groutSample (k : Keeps P) (x : Sample) (h : P s) : P (s.groutSample x) := by
  unfold State.groutSample
  split
  · exact h
  · split
    · exact k.groutPressure _ (k.free h rfl)
    · exact k.free h rfl

theorem groutContinued (k : Keeps P) (ps : List Byte) (h : P s) :
    (decideContinueGrout ps s).After P := by
  unfold decideContinueGrout
  split
  · exact h
  · split
    · exact h
    · split
      · exact h
      · exact k.groutWait (k.free h rfl)

theorem groutAborted (k : Keeps P) (ps : List Byte) (h : P s) : (decideAbortGrout ps s).After P := by
  unfold decideAbortGrout
  split
  · exact h
  · split
    · exact h
    · exact k.endGrout _ h

theorem batchPosted (k : Keeps P) (ps : List Byte) (h : P s) : (decidePostBatch ps s).After P := by
  unfold decidePostBatch
  split
  · exact h
  · split
    · exact h
    · repeat' split
      all_goals first | exact h | exact k.groutArrival (k.insertMark _ _ (k.free h rfl))

theorem removeBatch (k : Keeps P) (id : Nat) (h : P s) : P (s.removeBatch id) :=
  k.groutRemoval (k.batchGone _ (k.free h rfl))

theorem batchDiscarded (k : Keeps P) (ps : List Byte) (h : P s) :
    (decideDiscardBatch ps s).After P := by
  unfold decideDiscardBatch
  split
  · exact h
  · split
    · exact h
    · exact k.removeBatch _ h

/-! ## The panel table -/

theorem changePanel (k : Keeps P) (n : Nat) (new : PanelState) (h : P s) :
    P (s.changePanel n new) := by
  unfold State.changePanel
  simp only []
  split
  · exact h
  · exact k.raise _ (k.send _ (k.panel n _ h fun x hx => hx))

theorem clampDeflection_range (d : Int) :
    -3000 ≤ clampDeflection d ∧ clampDeflection d ≤ 3000 := by
  unfold clampDeflection
  omega

theorem takeReading (k : Keeps P) (r : WallReading) (h : P s) : P (s.takeReading r) := by
  refine k.insertMark _ _ (k.changePanel _ _ (k.panel _ _ h fun x _ y hy => ?_))
  simp only [Option.some.injEq] at hy
  rw [← hy]
  exact clampDeflection_range r.deflection

theorem wallReadings (k : Keeps P) (rs : List WallReading) (h : P s) :
    P (State.wallReadings rs s).1 := by
  induction rs generalizing s with
  | nil => exact h
  | cons r rest ih =>
    refine ih ?_
    unfold State.wallReading
    split
    · exact h
    · exact k.takeReading r h

theorem wallPosted (k : Keeps P) (ps : List Byte) (h : P s) : (decidePostWall ps s).After P := by
  unfold decidePostWall
  split
  · exact h
  · split
    · exact h
    · exact k.wallReadings _ h

/-! ## The stress engine -/

theorem drive (k : Keeps P) (v : Valve) (d : Nat) (h : P s) : P (s.drive v d) := by
  unfold State.drive
  split
  · exact h
  · exact k.duty _ _ _ h

theorem stopJack (k : Keeps P) (h : P s) : P s.stopJack := k.duty _ _ _ (k.duty _ _ _ h)

theorem endMakeUp (k : Keeps P) (h : P s) : P s.endMakeUp := by
  unfold State.endMakeUp
  split
  · exact k.duty _ _ _ (k.free h rfl)
  · exact h

theorem makeUp (k : Keeps P) (level load : Nat) (h : P s) : P (s.makeUp level load) := by
  unfold State.makeUp
  split
  · split
    · exact k.endMakeUp h
    · exact h
  · split
    · exact k.duty _ _ _ (k.free h rfl)
    · exact h

theorem evaluatedEnd (k : Keeps P) (r : TestCode) (h : P s) : P (s.evaluatedEnd r) := by
  unfold State.evaluatedEnd
  split
  · exact h
  · rename_i a ha
    have hf : ∃ p, s.register.find p = some a ∧ a.state = .testing := by
      unfold State.testedAnchor at ha
      split at ha
      · rename_i b hb
        split at ha
        · rename_i hs
          simp only [Option.some.injEq] at ha
          subst ha
          cases hp : s.stress.anchor with
          | none => simp [hp] at hb
          | some p => exact ⟨p, by simpa [hp] using hb, hs⟩
        · simp at ha
      · simp at ha
    obtain ⟨p, hp, hs⟩ := hf
    have hpos : a.pos = p := by
      have := List.find?_some hp
      simpa using this
    exact k.ask _ _ _ (k.slot _ (k.found (Anchor.testEvaluated r s.stress.creepFigure s.stress.lApp)
      h (hpos ▸ hp) (moves_testEvaluated _ _ _ _ hs)))

theorem abortedEnd (k : Keeps P) (c : TestCode) (b : Bool) (h : P s) : P (s.abortedEnd c b) := by
  unfold State.abortedEnd
  split
  · exact k.anchor _ h (moves_testAborted _ _ _)
  · exact h

theorem endTest (k : Keeps P) (c : TestCode) (b : Bool) (h : P s) : P (s.endTest c b) := by
  unfold State.endTest
  simp only []
  split
  · exact k.raise _ (k.free (k.abortedEnd c b (k.stopJack h)) rfl)
  · exact k.raise _ (k.free (k.evaluatedEnd c (k.stopJack h)) rfl)

theorem endWaiting (k : Keeps P) (c : TestCode) (b : Bool) (h : P s) : P (s.endWaiting c b) :=
  k.endTest c b (k.send _ h)

theorem enterUnloading (k : Keeps P) (c : TestCode) (h : P s) : P (s.enterUnloading c) := by
  have hd := k.duty (s := s.removeStressMarks) .stress .jackAdvance 0 (k.dropMarks _ h)
  unfold State.enterUnloading
  simp only []
  split
  · exact k.free hd rfl
  · exact k.duty _ _ _ (k.free hd rfl)

theorem abortTest (k : Keeps P) (c : TestCode) (h : P s) : P (s.abortTest c) := by
  unfold State.abortTest
  split
  · exact k.endWaiting c _ h
  · exact k.enterUnloading c h

theorem releaseSample (k : Keeps P) (load : Nat) (h : P s) : P (s.releaseSample load) := by
  unfold State.releaseSample
  split
  · split
    · exact k.endTest _ _ h
    · exact h
  · split
    · exact h
    · exact k.drive _ _ h

theorem suspend (k : Keeps P) (r : ResumeKind) (h : P s) : P (s.suspend r) :=
  k.raise _ (k.insertMark _ _ (k.free (k.stopJack h) rfl))

theorem evaluateLength (k : Keeps P) (h : P s) : P s.evaluateLength := by
  unfold State.evaluateLength
  split
  · exact h
  · simp only []
    split
    · exact k.enterUnloading _ (k.free h rfl)
    · split
      · exact k.enterUnloading _ (k.free h rfl)
      · exact k.free h rfl

theorem endLockOff (k : Keeps P) (r : TestCode) (h : P s) : P (s.endLockOff r) := by
  have hd := k.duty (s := (s.removeStressMarks).unsetCompare) .stress .jackAdvance 0
    (k.free (k.dropMarks _ h) rfl)
  unfold State.endLockOff
  simp only []
  split
  · exact k.free hd rfl
  · exact k.duty _ _ _ (k.free hd rfl)

theorem decideLift (k : Keeps P) (n : Nat) (h : P s) : P (s.decideLift n) := by
  unfold State.decideLift
  split
  · exact k.endLockOff _ h
  · split
    · exact k.free h rfl
    · exact k.endLockOff _ h

theorem stressCapture (k : Keeps P) (x : Sample) (h : P s) : P (s.stressCapture x) := by
  unfold State.stressCapture
  split
  · split
    · exact k.raise _ (k.endLockOff _ h)
    · exact k.decideLift _ (k.free (k.duty _ _ _ h) rfl)
  · exact h

theorem beginSeating (k : Keeps P) (h : P s) : P s.beginSeating := k.duty _ _ _ (k.free h rfl)

theorem lockRampSample (k : Keeps P) (load : Nat) (h : P s) : P (s.lockRampSample load) := by
  unfold State.lockRampSample
  split
  · exact k.beginSeating (k.free (k.stopJack h) rfl)
  · exact k.drive _ _ (k.free h rfl)

theorem seatingSample (k : Keeps P) (load : Nat) (h : P s) : P (s.seatingSample load) := by
  unfold State.seatingSample
  split
  · exact h
  · split
    · exact k.insertMark _ _ (k.free (k.duty _ _ _ h) rfl)
    · exact k.drive _ _ h

theorem liftSample (k : Keeps P) (v : JackView) (h : P s) : P (s.liftSample v) := by
  unfold State.liftSample
  split
  · exact k.decideLift _ (k.free (k.duty _ _ _ h) rfl)
  · exact h

theorem lockSample (k : Keeps P) (v : JackView) (h : P s) : P (s.lockSample v) := by
  unfold State.lockSample
  split
  · split
    · exact k.lockRampSample _ h
    · exact k.seatingSample _ h
    · exact k.liftSample _ h
    · exact h
  · exact h

theorem beginLift (k : Keeps P) (h : P s) : P s.beginLift := k.duty _ _ _ (k.free h rfl)

theorem stressSeat (k : Keeps P) (h : P s) : P s.stressSeat := by
  unfold State.stressSeat
  split
  · exact k.beginLift (k.free h rfl)
  · exact h

theorem freezeLock (k : Keeps P) (h : P s) : P s.freezeLock := k.free (k.dropMarks _ h) rfl

theorem resumeLock (k : Keeps P) (h : P s) : P s.resumeLock := by
  unfold State.resumeLock
  simp only []
  split
  · exact k.free h rfl
  · exact k.beginSeating (k.free h rfl)
  · exact k.beginLift (k.free h rfl)
  · exact k.free h rfl

theorem testStarted (k : Keeps P) (ps : List Byte) (h : P s) : (decideStartTest ps s).After P := by
  unfold decideStartTest
  split
  · exact h
  · split
    · exact h
    · split
      · exact h
      · rename_i a ha
        split
        · exact h
        · rename_i hs
          split
          · exact h
          · rename_i hc
            have hpos : a.pos = positionAt ps 0 := by
              have := List.find?_some ha
              simpa using this
            have hst : a.state = .grouted ∨ a.state = .failed := by
              by_contra hn
              exact hs ⟨fun e => hn (.inl e), fun e => hn (.inr e)⟩
            have hgo : ∀ steps, P (s.startTest a steps) := fun steps =>
              k.free (k.found _ h (hpos ▸ ha)
                (moves_startWork_testing a s.nowSeconds hst hc)) rfl
            unfold decideTestProfile decideTestPermit
            repeat' split
            all_goals first | exact h | exact hgo _

theorem testAborted (k : Keeps P) (ps : List Byte) (h : P s) : (decideAbortTest ps s).After P := by
  unfold decideAbortTest
  repeat' split
  all_goals first | exact h | exact k.abortTest _ h

theorem stressGrant (k : Keeps P) (h : P s) : P s.stressGrant := by
  unfold State.stressGrant
  split
  · split
    · exact k.free h rfl
    · exact k.suspend _ h
  · split
    · exact k.resumeLock h
    · exact h

theorem stressTrip (k : Keeps P) (h : P s) : P s.stressTrip := by
  have hw : P (s.setTripWait true) := k.free h rfl
  unfold State.stressTrip
  split
  · exact h
  · exact k.endWaiting _ _ h
  · exact k.enterUnloading _ hw
  · exact k.enterUnloading _ hw
  · exact k.enterUnloading _ hw
  · split
    · exact h
    · exact k.freezeLock h
  · split
    · exact h
    · exact k.freezeLock h
  · split
    · exact h
    · exact k.freezeLock h
  · exact hw
  · exact hw

theorem stressClear (k : Keeps P) (h : P s) : P s.stressClear := by
  have hw : P (s.setTripWait false) := k.free h rfl
  unfold State.stressClear
  repeat' split
  all_goals first | exact h | exact hw | exact k.duty _ _ _ hw | exact k.free h rfl

theorem stressEncoderFault (k : Keeps P) (h : P s) : P s.stressEncoderFault := by
  unfold State.stressEncoderFault
  split <;> first | exact h | exact k.abortTest _ h | exact k.endLockOff _ h

theorem insertCreepMarks (k : Keeps P) (i : Nat) (st : Step) (t : SiteTime) (h : P s) :
    P (s.insertCreepMarks i st t) := by
  have hb : P (if st.creep then s.insertMark (.creep i .base) (afterSeconds t (st.hold / 10))
      else s) := by
    split
    · exact k.insertMark _ _ h
    · exact h
  unfold State.insertCreepMarks
  simp only []
  split
  · exact k.insertMark (.creep i .extended) (afterSeconds t (st.ext / 10)) hb
  · exact hb

theorem insertHoldMarks (k : Keeps P) (i : Nat) (st : Step) (t : SiteTime) (h : P s) :
    P (s.insertHoldMarks i st t) :=
  k.insertCreepMarks i st t (k.insertMark (.holdEnd i) (afterSeconds t st.hold) h)

theorem reachTarget (k : Keeps P) (h : P s) : P s.reachTarget := by
  have hj := k.stopJack h
  unfold State.reachTarget
  simp only []
  split
  · exact k.insertHoldMarks _ _ _ (k.free hj rfl)
  · exact k.free hj rfl

theorem rampSample (k : Keeps P) (load : Nat) (h : P s) : P (s.rampSample load) := by
  unfold State.rampSample
  split
  · exact k.reachTarget h
  · exact k.drive _ _ (k.free h rfl)

theorem raiseIf (k : Keeps P) (b : Bool) (e : Event) (h : P s) : P (s.raiseIf b e) := by
  unfold State.raiseIf
  split
  · exact k.raise _ h
  · exact h

theorem scheduleSample (k : Keeps P) (v : JackView) (h : P s) : P (s.scheduleSample v) := by
  unfold State.scheduleSample
  split
  · exact k.rampSample _ h
  · exact k.makeUp _ _ h
  · exact k.makeUp _ _ h
  · exact h

theorem actOnSample (k : Keeps P) (v : JackView) (h : P s) : P (s.actOnSample v) := by
  unfold State.actOnSample
  repeat' split
  all_goals
    first
      | exact h
      | exact k.raiseIf _ _ (k.abortTest _ h)
      | exact k.scheduleSample _ h
      | exact k.raiseIf _ _ (k.endLockOff _ h)
      | exact k.lockSample _ h
      | exact k.releaseSample _ h

theorem stressSample (k : Keeps P) (v : JackView) (h : P s) : P (s.stressSample v) := by
  unfold State.stressSample
  split
  · exact h
  · exact k.actOnSample v (k.free h rfl)

theorem countStep (k : Keeps P) (enc : Encoder) (pair : PhasePair) (h : P s) :
    P (s.countStep enc pair) := by
  have hm : P { s with meas := s.meas.moveEncoder enc pair } := k.free h rfl
  unfold State.countStep
  simp only []
  split
  · unfold State.encoderFault
    split
    · exact k.winchEncoderFault (k.raise _ hm)
    · exact k.stressEncoderFault (k.raise _ hm)
  · unfold State.checkCompare
    repeat' split
    all_goals exact k.free h rfl
  · exact hm

theorem progress (k : Keeps P) (h : P s) : P s.progress := by
  unfold State.progress
  repeat' split
  all_goals first | exact k.evaluateLength h | exact k.suspend _ h | exact k.free h rfl

theorem resumeTest (k : Keeps P) (h : P s) : P s.resumeTest := by
  have hm : P ((s.removeMark (.suspension (s.stress.step.getD 0))).endMakeUp) :=
    k.endMakeUp (k.removeMark _ h)
  unfold State.resumeTest
  simp only []
  split <;> first | exact k.free hm rfl | exact k.evaluateLength (k.free hm rfl)

theorem stressPanelChange (k : Keeps P) (n : Nat) (h : P s) : P (s.stressPanelChange n) := by
  unfold State.stressPanelChange
  repeat' split
  all_goals first | exact h | exact k.suspend _ h | exact k.resumeTest h

theorem stressSuspension (k : Keeps P) (h : P s) : P s.stressSuspension := by
  unfold State.stressSuspension
  split
  · exact k.abortTest _ h
  · exact h

theorem stressCreep (k : Keeps P) (i : Nat) (h : P s) : P (s.stressCreep i) := by
  unfold State.stressCreep
  split
  · exact k.free h rfl
  · exact h

theorem judgeCreep (k : Keeps P) (x : Int) (h : P s) : P (s.judgeCreep x) := by
  unfold State.judgeCreep
  split
  · exact k.progress h
  · exact k.enterUnloading _ h

theorem afterHold (k : Keeps P) (i : Nat) (st : Step) (h : P s) : P (s.afterHold i st) := by
  unfold State.afterHold
  split
  · exact k.progress h
  · split
    · exact k.judgeCreep _ (k.free h rfl)
    · split
      · exact k.insertMark _ _ (k.free h rfl)
      · exact k.judgeCreep _ (k.free h rfl)

theorem stressHoldEnd (k : Keeps P) (i : Nat) (h : P s) : P (s.stressHoldEnd i) := by
  unfold State.stressHoldEnd
  split
  · split
    · refine k.afterHold _ _ ?_
      unfold State.recordStepEnd
      split <;> exact k.free (k.endMakeUp h) rfl
    · exact h
  · exact h

/-! ## Claims and notices -/

theorem engineTrip (k : Keeps P) (e : Engine) (h : P s) : P (s.engineTrip e) := by
  cases e
  · exact k.winchTrip h
  · exact k.groutTrip h
  · exact k.stressTrip h

theorem engineGrant (k : Keeps P) (e : Engine) (h : P s) : P (s.engineGrant e) := by
  cases e
  · exact k.winchGrant h
  · exact k.groutGrant h
  · exact k.stressGrant h

theorem engineClear (k : Keeps P) (e : Engine) (h : P s) : P (s.engineClear e) := by
  cases e
  · exact h
  · exact h
  · exact k.stressClear h

theorem decideClaim (k : Keeps P) (e : Engine) (d : Nat) (h : P s) : P (s.decideClaim e d) := by
  unfold State.decideClaim
  split
  · exact k.engineTrip e h
  · rename_i hl
    split
    · exact h
    · rename_i hs
      exact k.claim e d h (by simpa using hl) (by simpa using hs)

theorem arrive (k : Keeps P) (d : Delivery) (h : P s) : P (s.arrive d) := by
  unfold State.arrive
  split
  · exact k.decideClaim _ _ h
  · exact k.release _ h
  · exact h

theorem arrivals (k : Keeps P) (h : P s) : P s.arrivals := by
  unfold State.arrivals
  have ht : P { s with deliveries := s.deliveries.filter fun d => !d.toArbiter } := k.free h rfl
  generalize s.deliveries.filter Delivery.toArbiter = ds
  revert ht
  generalize ({ s with deliveries := s.deliveries.filter fun d => !d.toArbiter } : State) = u
  intro hu
  induction ds generalizing u with
  | nil => exact hu
  | cons d rest ih => exact ih _ (k.arrive d hu)

/-! ## The expiry of marks -/

theorem expired (k : Keeps P) (n : MarkName) (h : P s) : P (s.expired n) := by
  unfold State.expired
  split
  · exact k.changePanel _ _ h
  · exact k.removeBatch _ h
  · exact k.winchJam h
  · unfold State.groutColdJoint
    split
    · exact k.endGrout _ h
    · exact h
  · unfold State.groutRefusal
    split
    · exact k.endGrout _ h
    · exact h
  · exact k.stressHoldEnd _ h
  · exact k.stressSeat h
  · exact k.stressCreep _ h
  · exact k.stressSuspension h

theorem expireHead (k : Keeps P) (f : MarkName → Bool) (h : P s) : P (s.expireHead f) := by
  rcases State.expireHead_cases f s with e | ⟨m, rest, hm, -, -, e⟩
  · rw [e]; exact h
  · rw [e]; exact k.expired _ (k.headMark h hm)

theorem expireHeads (k : Keeps P) (n : Nat) (h : P s) : P (s.expireHeads n) := by
  induction n generalizing s with
  | zero => exact h
  | succ n ih =>
    unfold State.expireHeads
    split
    · exact h
    · exact ih (k.expireHead _ h)

/-- The expiry of every due mark keeps the property. -/
theorem expireDue (k : Keeps P) (h : P s) : P s.expireDue :=
  powered h fun _ hu => k.expireHeads _ hu

/-! ## The journal -/

theorem stageSet (k : Keeps P) (p : PortNo) (ps : List Byte) (h : P s) :
    (decideStageSetting p ps s).After P := by
  unfold decideStageSetting
  split
  · exact h
  · rename_i hf
    split
    · exact h
    · refine k.stage p _ h fun x hx => ?_
      simp only [stageFormOk, Bool.not_eq_true', Bool.not_eq_false, Bool.and_eq_true,
        List.all_eq_true, decide_eq_true_eq] at hf
      exact hf.2 x hx

theorem profileStaged (k : Keeps P) (p : PortNo) (ps : List Byte) (h : P s) :
    (decideStageProfile p ps s).After P := by
  unfold decideStageProfile
  repeat' split
  all_goals first | exact h | exact k.profile p _ _ h

theorem stagingDropped (k : Keeps P) (p : PortNo) (ps : List Byte) (h : P s) :
    (decideDropStaging p ps s).After P := by
  unfold decideDropStaging
  repeat' split
  all_goals first | exact h | exact k.unstage h

theorem committed (k : Keeps P) (p : PortNo) (ps : List Byte) (h : P s) :
    (decideCommit p ps s).After P := by
  unfold decideCommit decideCommitImage
  repeat' split
  all_goals first | exact h | exact k.ask _ _ _ h

theorem addLocked (k : Keeps P) (n r : Nat) (h : P s) : P (s.addLocked n r) :=
  k.panel n _ h fun _ hx => hx

theorem completeCertificate (k : Keeps P) (i : Option Nat) (h : P s) :
    P (s.completeCertificate i) := by
  unfold State.completeCertificate
  split
  · exact h
  · rename_i c _
    have hr : P { s with register := { s.register.modify c.pos (Anchor.certified c i) with
        slot := none } } := k.slot none (k.anchor c.pos h (moves_certified c i))
    simp only []
    repeat' split
    all_goals
      first
        | exact hr
        | exact k.raise _ hr
        | exact k.addLocked _ _ hr
        | exact k.raise _ (k.addLocked _ _ hr)

theorem retirePanel (k : Keeps P) (n : Nat) (h : P s) : P (s.retirePanel n) :=
  k.removeMark _ (k.panel n _ h fun _ _ _ hy => by simp at hy)

theorem rejudgePanel (k : Keeps P) (n : Nat) (h : P s) : P (s.rejudgePanel n) := by
  unfold State.rejudgePanel
  split
  · exact h
  · exact k.changePanel _ _ h
  · exact h

theorem folded {f : State → Nat → State} (hf : ∀ (n : Nat) (u : State), P u → P (f u n))
    (ns : List Nat) (h : P s) : P (ns.foldl f s) := by
  induction ns generalizing s with
  | nil => exact h
  | cons n rest ih => exact ih (hf n s h)

theorem applyPanelSettings (k : Keeps P) (old : Settings) (h : P s) :
    P (s.applyPanelSettings old) := by
  have hr := folded (fun n _ hu => k.retirePanel n hu)
    (numbersFrom (s.settings.panelCount + 1) old.panelCount) h
  unfold State.applyPanelSettings
  simp only []
  split
  · exact folded (fun n _ hu => k.rejudgePanel n hu) _ hr
  · exact hr

theorem completeCommit (k : Keeps P)
    (hf : ∀ {u : State} {x : Staging}, P u → u.staging = some x →
      P { u with settings := x.image, staging := none })
    (p : PortNo) (i : Option Nat) (h : P s) : P (s.completeCommit p i) := by
  unfold State.completeCommit
  split
  · refine k.answer _ _ _ ?_
    unfold State.bringInForce
    split
    · rename_i x hx
      exact k.applyPanelSettings _ (hf (k.arrivals h) hx)
    · exact k.arrivals h
  · exact k.answer _ _ _ (k.unstage h)

theorem completeAppend (k : Keeps P)
    (hf : ∀ {u : State} {x : Staging}, P u → u.staging = some x →
      P { u with settings := x.image, staging := none })
    (run : AppendRun) (h : P s) : P (s.completeAppend run) := by
  unfold State.completeAppend
  split
  · exact h
  · rename_i a ha
    have hj : P (State.journalEvents { s with journal := (s.journal.append a run).settle }) := by
      have hx := k.settle run h ha
      unfold State.journalEvents
      repeat' split
      all_goals first | exact hx | exact k.raise _ hx
    simp only []
    unfold State.tellAsker
    split
    · exact k.completeCertificate _ hj
    · exact k.completeCommit hf _ _ hj

/-! ## Transfers -/

theorem submission (k : Keeps P) (p : PortNo) (code : Byte) (form : List Byte) (h : P s) :
    After P (Machine.submission p code form s) := by
  unfold Machine.submission
  split
  · exact k.submit (fun _ _ hu => k.declared _ hu) h
  · exact k.submit (fun _ _ hu => k.withdrawn _ hu) h
  · exact k.submit (fun _ _ hu => k.abandoned _ hu) h
  · exact k.submit (fun _ _ hu => k.sought _ _ hu) h
  · exact k.submit (fun _ _ hu => k.nexted _ _ hu) h
  · exact k.submit (fun _ _ hu => inspected _ hu) h
  · exact k.submit (fun _ _ hu => k.winchStarted _ hu) h
  · exact k.submit (fun _ _ hu => k.winchContinued _ hu) h
  · exact k.submit (fun _ _ hu => k.winchAborted _ hu) h
  · exact k.submit (fun _ _ hu => k.groutStarted _ hu) h
  · exact k.submit (fun _ _ hu => k.groutContinued _ hu) h
  · exact k.submit (fun _ _ hu => k.groutAborted _ hu) h
  · exact k.submit (fun _ _ hu => k.testStarted _ hu) h
  · exact k.submit (fun _ _ hu => k.testAborted _ hu) h
  · exact k.submit (fun _ _ hu => k.tripCleared _ hu) h
  · exact k.submit (fun _ _ hu => k.batchPosted _ hu) h
  · exact k.submit (fun _ _ hu => k.batchDiscarded _ hu) h
  · exact k.submit (fun _ _ hu => k.wallPosted _ hu) h
  · exact k.submit (fun _ _ hu => k.timeSet _ hu) h
  · exact k.submit (fun _ _ hu => k.timeShifted _ hu) h
  · exact k.submit (fun _ _ hu => panelsRead _ hu) h
  · exact k.submit (fun _ _ hu => journalRead _ hu) h
  · exact k.submit (fun _ _ hu => k.stageSet _ _ hu) h
  · exact k.submit (fun _ _ hu => k.profileStaged _ _ hu) h
  · exact k.submit (fun _ _ hu => k.stagingDropped _ _ hu) h
  · exact k.submit (fun _ _ hu => k.committed _ _ hu) h
  · exact k.submit (fun _ _ hu => eventsRead _ _ hu) h
  · exact k.submit (fun _ _ hu => k.eventsCleared _ _ hu) h
  · exact k.submit (fun _ _ hu => k.maskSet _ _ hu) h
  · exact k.submit (fun _ _ hu => statusRead _ hu) h
  · exact k.submitUnknown p code form h

theorem mailboxWrite (k : Keeps P) (p : PortNo) (off : Byte) (bs : List Byte) (stop : Bool)
    (h : P s) : After P (onMailboxWrite p off bs stop s) := by
  unfold onMailboxWrite
  split
  · split
    · exact k.submission _ _ _ h
    · exact k.storeAt _ _ _ h
  · exact k.storeAt _ _ _ h

/-- The commands but the four that reach the nonvolatile blocks as a whole: a start-up, a power loss,
the end of the start-up's work and the completion of an append. -/
theorem exec (k : Keeps P) (c : Instr) (h1 : ∀ a b d e, c ≠ .startUp a b d e)
    (h2 : ∀ a b, c ≠ .powerLoss a b) (h3 : ∀ a, c ≠ .startUpScanDone a)
    (h4 : ∀ a, c ≠ .appendCompletion a) (h0 : P s) : After P (Machine.exec c s) := by
  have h := k.expireDue h0
  cases c with
  | startUp a b d e => exact absurd rfl (h1 a b d e)
  | powerLoss a b => exact absurd rfl (h2 a b)
  | startUpScanDone a => exact absurd rfl (h3 a)
  | appendCompletion a => exact absurd rfl (h4 a)
  | mailboxWrite p off bs stop => exact k.mailboxWrite p off bs stop h
  | unknownRequestSubmission p code form => exact k.submission p code form h
  | declare p form => exact k.submit (fun _ _ hu => k.declared _ hu) h
  | withdraw p form => exact k.submit (fun _ _ hu => k.withdrawn _ hu) h
  | abandon p form => exact k.submit (fun _ _ hu => k.abandoned _ hu) h
  | seek p form => exact k.submit (fun _ _ hu => k.sought _ _ hu) h
  | nextRecord p form => exact k.submit (fun _ _ hu => k.nexted _ _ hu) h
  | inspect p form => exact k.submit (fun _ _ hu => inspected _ hu) h
  | startWinch p form => exact k.submit (fun _ _ hu => k.winchStarted _ hu) h
  | continueWinch p form => exact k.submit (fun _ _ hu => k.winchContinued _ hu) h
  | abortWinch p form => exact k.submit (fun _ _ hu => k.winchAborted _ hu) h
  | startGrout p form => exact k.submit (fun _ _ hu => k.groutStarted _ hu) h
  | continueGrout p form => exact k.submit (fun _ _ hu => k.groutContinued _ hu) h
  | abortGrout p form => exact k.submit (fun _ _ hu => k.groutAborted _ hu) h
  | startTest p form => exact k.submit (fun _ _ hu => k.testStarted _ hu) h
  | abortTest p form => exact k.submit (fun _ _ hu => k.testAborted _ hu) h
  | clearTrip p form => exact k.submit (fun _ _ hu => k.tripCleared _ hu) h
  | postBatch p form => exact k.submit (fun _ _ hu => k.batchPosted _ hu) h
  | discardBatch p form => exact k.submit (fun _ _ hu => k.batchDiscarded _ hu) h
  | postWall p form => exact k.submit (fun _ _ hu => k.wallPosted _ hu) h
  | setTime p form => exact k.submit (fun _ _ hu => k.timeSet _ hu) h
  | shiftTime p form => exact k.submit (fun _ _ hu => k.timeShifted _ hu) h
  | readPanels p form => exact k.submit (fun _ _ hu => panelsRead _ hu) h
  | readJournal p form => exact k.submit (fun _ _ hu => journalRead _ hu) h
  | stageSetting p form => exact k.submit (fun _ _ hu => k.stageSet _ _ hu) h
  | stageProfile p form => exact k.submit (fun _ _ hu => k.profileStaged _ _ hu) h
  | dropStaging p form => exact k.submit (fun _ _ hu => k.stagingDropped _ _ hu) h
  | commitSettings p form => exact k.submit (fun _ _ hu => k.committed _ _ hu) h
  | readEvents p form => exact k.submit (fun _ _ hu => eventsRead _ _ hu) h
  | clearEvents p form => exact k.submit (fun _ _ hu => k.eventsCleared _ _ hu) h
  | setMask p form => exact k.submit (fun _ _ hu => k.maskSet _ _ hu) h
  | partStatus p form => exact k.submit (fun _ _ hu => statusRead _ hu) h
  | tripLineAssertion =>
    refine powered h fun u hu => ?_
    split
    · exact k.line true hu
    · rename_i hl
      exact k.trip hu (by simpa using hl)
  | tripLineRelease => exact powered h fun u hu => k.line false hu
  | tripNotice e => exact powered h fun u hu => k.deliver hu fun _ _ ht => k.engineTrip e ht
  | clearNotice e => exact powered h fun u hu => k.deliver hu fun _ _ ht => k.engineClear e ht
  | claim e => exact powered h fun u hu => k.deliver hu fun _ _ ht => k.decideClaim e _ ht
  | grant e => exact powered h fun u hu => k.deliver hu fun _ _ ht => k.engineGrant e ht
  | release e => exact powered h fun u hu => k.deliver hu fun _ _ ht => k.release e ht
  | tensionSample code => exact powered h fun u hu => k.winchSample _ _ (k.free hu rfl)
  | groutSample code => exact powered h fun u hu => k.groutSample _ (k.free hu rfl)
  | jackSample code => exact powered h fun u hu => k.stressSample _ (k.free hu rfl)
  | countStep enc pair => exact powered h fun u hu => k.countStep enc pair hu
  | liftOffCapture => exact powered h fun u hu => k.deliver hu fun _ _ ht => k.stressCapture _ ht
  | strokeEdge =>
    refine powered h fun u hu => ?_
    repeat' split
    all_goals exact k.free hu rfl
  | stroke => exact powered h fun u hu => k.deliver hu fun _ _ ht => k.groutStroke ht
  | stalenessExpiry n => exact powered h0 fun _ hu => k.expireHead _ hu
  | batchExpiry id => exact powered h0 fun _ hu => k.expireHead _ hu
  | jamExpiry => exact powered h0 fun _ hu => k.expireHead _ hu
  | coldJointExpiry => exact powered h0 fun _ hu => k.expireHead _ hu
  | refusalExpiry => exact powered h0 fun _ hu => k.expireHead _ hu
  | creepExpiry => exact powered h0 fun _ hu => k.expireHead _ hu
  | holdEndExpiry => exact powered h0 fun _ hu => k.expireHead _ hu
  | seatExpiry => exact powered h0 fun _ hu => k.expireHead _ hu
  | suspensionExpiry => exact powered h0 fun _ hu => k.expireHead _ hu
  | panelChangeDelivery =>
    exact powered h fun u hu => k.deliver hu fun _ _ ht => k.stressPanelChange _ ht
  | siteClockTick => exact k.free h rfl
  | strokeTimerTick => exact powered h fun u hu => k.free hu rfl
  | valvePeriodStart v => exact powered h fun u hu => k.period v _ hu
  | clockDomainSupplyLoss => exact k.free h rfl

/-- The completion of an append keeps a property that also survives new settings in force. -/
theorem appended (k : Keeps P)
    (hf : ∀ {u : State} {x : Staging}, P u → u.staging = some x →
      P { u with settings := x.image, staging := none })
    (run : AppendRun) (h : P s) : After P (Machine.exec (.appendCompletion run) s) :=
  powered (k.expireDue h) fun _ hu => k.completeAppend hf run hu

end Keeps

end Sys2Proof.Machine
end

