-- ==== Sys2Proof/Laws/Layout.lean ====
section
/-! SUPPORT. The lengths of the layouts of replies and records, and the places of their fields. -/

namespace Sys2Proof.Machine

@[simp] theorem enc8_length (n : Nat) : (enc8 n).length = 1 := rfl
@[simp] theorem bytes16_length (w : BitVec 16) : (bytes16 w).length = 2 := rfl
@[simp] theorem bytes32_length (w : BitVec 32) : (bytes32 w).length = 4 := rfl
@[simp] theorem enc16_length (n : Nat) : (enc16 n).length = 2 := rfl
@[simp] theorem enc32_length (n : Nat) : (enc32 n).length = 4 := rfl
@[simp] theorem enc16u_length (i : Int) : (enc16u i).length = 2 := rfl
@[simp] theorem encS16_length (i : Int) : (encS16 i).length = 2 := rfl
@[simp] theorem encS32_length (i : Int) : (encS32 i).length = 4 := rfl
@[simp] theorem encFlag_length (b : Bool) : (encFlag b).length = 1 := rfl
@[simp] theorem encTime_length (t : SiteTime) : (encTime t).length = 6 := rfl
@[simp] theorem encPos_length (p : Option Position) : (encPos p).length = 3 := by cases p <;> rfl
@[simp] theorem encDesign_length (d : Design) : (encDesign d).length = 17 := rfl
@[simp] theorem encWork_length (w : Option Work) : (encWork w).length = 6 := by cases w <;> rfl
@[simp] theorem encPlacement_length (x : Option Placement) : (encPlacement x).length = 9 := by
  cases x <;> rfl
@[simp] theorem encTest_length (t : Option TestPart) : (encTest t).length = 13 := by cases t <;> rfl
@[simp] theorem encCreep_length (e : CreepEntry) : (encCreep e).length = 6 := rfl
@[simp] theorem encReading_length (r : Reading) : (encReading r).length = 12 := rfl
@[simp] theorem encStep_length (st : Step) : (encStep st).length = 7 := rfl
@[simp] theorem encBatch_length (b : Batch) : (encBatch b).length = 16 := rfl
@[simp] theorem encLengths_length (l : Option LengthFigures) : (encLengths l).length = 28 := by
  cases l <;> rfl
@[simp] theorem encSample_length (x : Option Sample) : (encSample x).length = 5 := by cases x <;> rfl
@[simp] theorem encMark_length (m : Option Mark) : (encMark m).length = 7 := by cases m <;> rfl
@[simp] theorem encFlow_length (f : FlowState) : (encFlow f).length = 2 := rfl
@[simp] theorem encOutput_length (o : Output) : (encOutput o).length = 4 := rfl
@[simp] theorem encJackView_length (v : Option JackView) : (encJackView v).length = 13 := by
  cases v <;> rfl

/-- A layout repeated for each element of a list. -/
theorem length_flatMap_of_const {α : Type} {f : α → List Byte} {k : Nat}
    (h : ∀ x, (f x).length = k) (l : List α) : (l.flatMap f).length = k * l.length := by
  induction l with
  | nil => rfl
  | cons x xs ih => rw [List.flatMap_cons, List.length_append, h, ih, List.length_cons]; grind

@[simp] theorem encIds_length (ids : List Nat) : (encIds ids).length = 12 := by
  rw [encIds, length_flatMap_of_const enc16_length]; simp

@[simp] theorem encGrout_length (g : Option GroutPart) : (encGrout g).length = 27 := by
  cases g <;> simp [encGrout]

@[simp] theorem encGroutSummary_length (g : Option GroutPart) : (encGroutSummary g).length = 22 := by
  cases g <;> simp [encGroutSummary]

@[simp] theorem encCreeps_length (l : List CreepEntry) :
    (l.flatMap encCreep).length = 6 * l.length :=
  length_flatMap_of_const encCreep_length l

@[simp] theorem encReadings_length (l : List Reading) :
    (l.flatMap encReading).length = 12 * l.length :=
  length_flatMap_of_const encReading_length l

@[simp] theorem encLockFigures_length (e : Stress) (r : TestCode) :
    (encLockFigures e r).length = 14 := by
  unfold encLockFigures
  split <;> simp only [List.length_append, enc8_length, enc32_length, encS32_length] <;>
    split <;> simp

/-! ## A field at an offset -/

/-- A field stands where it follows what comes before it. -/
@[simp] theorem holdsAt_here (field rest : List Byte) : holdsAt (field ++ rest) 0 field := by
  simp [holdsAt]

@[simp] theorem holdsAt_end (field : List Byte) : holdsAt field 0 field := by simp [holdsAt]

/-- What stands before an offset is passed over. -/
theorem holdsAt_append {front rest field : List Byte} {off : Nat} (h : front.length ≤ off) :
    holdsAt (front ++ rest) off field ↔ holdsAt rest (off - front.length) field := by
  simp [holdsAt, List.drop_append, List.drop_eq_nil_of_le h]

/-- A field of a layout that is followed by more bytes. -/
theorem holdsAt_append_left {bs field : List Byte} {off : Nat} (h : holdsAt bs off field)
    (rest : List Byte) : holdsAt (bs ++ rest) off field := by
  have hlen : field.length ≤ bs.length - off := by
    have := congrArg List.length h
    rw [List.length_take, List.length_drop] at this
    exact this ▸ Nat.min_le_right _ _
  rw [holdsAt, List.drop_append, List.take_append_of_le_length (by rwa [List.length_drop])]
  exact h

/-- Item `i` of a layout repeated for each element of a list and fitted to `m` items stands at `i`
lengths of one item; where there is no such item, zeros stand there. -/
theorem holdsAt_fit_flatMap {α : Type} {f : α → List Byte} {k : Nat} (h : ∀ x, (f x).length = k)
    (l : List α) {m i : Nat} (hi : i < m) :
    holdsAt (fitBytes (k * m) (l.flatMap f)) (k * i)
      ((l[i]?.map f).getD (List.replicate k 0)) := by
  have hfit : k * i + k ≤ k * m := by rw [← Nat.mul_succ]; exact Nat.mul_le_mul_left k hi
  clear hi
  generalize k * m = w at hfit
  induction l generalizing i w with
  | nil =>
    simp only [holdsAt, fitBytes, List.flatMap_nil, List.nil_append, List.getElem?_nil,
      Option.map_none, Option.getD_none, List.length_replicate, List.take_replicate,
      List.drop_replicate]
    congr 1
    omega
  | cons y ys ih =>
    have hw : fitBytes w ((y :: ys).flatMap f) = f y ++ fitBytes (w - k) (ys.flatMap f) := by
      have hk : k ≤ w := Nat.le_trans (Nat.le_add_left k _) hfit
      have hr : List.replicate w (0 : Byte) = List.replicate (w - k) 0 ++ List.replicate k 0 := by
        rw [List.replicate_append_replicate, Nat.sub_add_cancel hk]
      rw [fitBytes, fitBytes, List.flatMap_cons, List.append_assoc, List.take_append, h,
        List.take_of_length_le (by rw [h]; exact hk), hr, ← List.append_assoc,
        List.take_append_of_le_length (by simp)]
    rw [hw]
    cases i with
    | zero =>
      simp only [Nat.mul_zero, List.getElem?_cons_zero, Option.map_some, Option.getD_some]
      exact holdsAt_here _ _
    | succ i =>
      rw [Nat.mul_succ] at hfit
      rw [holdsAt_append (by rw [h, Nat.mul_succ]; exact Nat.le_add_left k _), h, Nat.mul_succ,
        Nat.add_sub_cancel, List.getElem?_cons_succ]
      exact ih _ (by omega)

end Sys2Proof.Machine
end

