-- ==== Sys2Proof/Laws/Marks.lean ====
section
/-! SUPPORT. The mark list: what an insertion and a removal do to it. -/

namespace Sys2Proof.Machine

theorem marksSorted_cons {m : Mark} {ms : List Mark} :
    marksSorted (m :: ms) = true ↔ (∀ x ∈ ms, m.due ≤ x.due) ∧ marksSorted ms = true := by
  simp [marksSorted]

theorem marksDistinct_cons {m : Mark} {ms : List Mark} :
    marksDistinct (m :: ms) = true ↔ (∀ x ∈ ms, x.name ≠ m.name) ∧ marksDistinct ms = true := by
  simp [marksDistinct]

theorem marksSorted_filter {p : Mark → Bool} {ms : List Mark} (h : marksSorted ms = true) :
    marksSorted (ms.filter p) = true := by
  induction ms with
  | nil => rfl
  | cons m rest ih =>
    rw [marksSorted_cons] at h
    rw [List.filter_cons]
    split
    · exact marksSorted_cons.mpr ⟨fun x hx => h.1 x (List.mem_filter.mp hx).1, ih h.2⟩
    · exact ih h.2

theorem marksDistinct_filter {p : Mark → Bool} {ms : List Mark} (h : marksDistinct ms = true) :
    marksDistinct (ms.filter p) = true := by
  induction ms with
  | nil => rfl
  | cons m rest ih =>
    rw [marksDistinct_cons] at h
    rw [List.filter_cons]
    split
    · exact marksDistinct_cons.mpr ⟨fun x hx => h.1 x (List.mem_filter.mp hx).1, ih h.2⟩
    · exact ih h.2

/-- Any removal of marks leaves a sound list sound. -/
theorem marksSound_filter {p : Mark → Bool} {ms : List Mark} (h : marksSound ms = true) :
    marksSound (ms.filter p) = true := by
  simp only [marksSound, Bool.and_eq_true] at h ⊢
  exact ⟨marksSorted_filter h.1, marksDistinct_filter h.2⟩

theorem marksSound_tail {m : Mark} {ms : List Mark} (h : marksSound (m :: ms) = true) :
    marksSound ms = true := by
  simp only [marksSound, Bool.and_eq_true, marksSorted_cons, marksDistinct_cons] at h ⊢
  exact ⟨h.1.2, h.2.2⟩

/-- A mark placed stands behind the marks due no later and ahead of those due later. -/
theorem placeMark_split {m : Mark} {ms : List Mark} (h : marksSorted ms = true) :
    ∃ before after, placeMark m ms = before ++ m :: after ∧ before ++ after = ms ∧
      (∀ x ∈ before, x.due ≤ m.due) ∧ ∀ x ∈ after, m.due < x.due := by
  induction ms with
  | nil => exact ⟨[], [], rfl, rfl, by simp, by simp⟩
  | cons x rest ih =>
    rw [marksSorted_cons] at h
    by_cases hx : x.due ≤ m.due
    · obtain ⟨b, a, h1, h2, h3, h4⟩ := ih h.2
      refine ⟨x :: b, a, by simp [placeMark, hx, h1], by simp [h2], ?_, h4⟩
      intro y hy
      rcases List.mem_cons.mp hy with rfl | hy
      · exact hx
      · exact h3 y hy
    · refine ⟨[], x :: rest, by simp [placeMark, hx], rfl, by simp, ?_⟩
      intro y hy
      have hlt : m.due < x.due := Nat.lt_of_not_le hx
      rcases List.mem_cons.mp hy with rfl | hy
      · exact hlt
      · exact Nat.lt_of_lt_of_le hlt (h.1 y hy)

theorem mem_placeMark {m x : Mark} {ms : List Mark} :
    x ∈ placeMark m ms ↔ x = m ∨ x ∈ ms := by
  induction ms with
  | nil => simp [placeMark]
  | cons y rest ih =>
    simp only [placeMark]
    split
    · simp only [List.mem_cons, ih]; tauto
    · simp only [List.mem_cons]

theorem marksSorted_placeMark {m : Mark} {ms : List Mark} (h : marksSorted ms = true) :
    marksSorted (placeMark m ms) = true := by
  induction ms with
  | nil => simp [placeMark, marksSorted]
  | cons x rest ih =>
    have h' := marksSorted_cons.mp h
    simp only [placeMark]
    split
    · rename_i hx
      refine marksSorted_cons.mpr ⟨fun y hy => ?_, ih h'.2⟩
      rcases mem_placeMark.mp hy with rfl | hy
      · exact hx
      · exact h'.1 y hy
    · rename_i hx
      have hlt : m.due < x.due := Nat.lt_of_not_le hx
      refine marksSorted_cons.mpr ⟨fun y hy => ?_, h⟩
      rcases List.mem_cons.mp hy with rfl | hy
      · exact Nat.le_of_lt hlt
      · exact Nat.le_trans (Nat.le_of_lt hlt) (h'.1 y hy)

theorem marksDistinct_placeMark {m : Mark} {ms : List Mark} (h : marksDistinct ms = true)
    (hn : ∀ x ∈ ms, x.name ≠ m.name) : marksDistinct (placeMark m ms) = true := by
  induction ms with
  | nil => simp [placeMark, marksDistinct]
  | cons x rest ih =>
    have h' := marksDistinct_cons.mp h
    simp only [placeMark]
    split
    · refine marksDistinct_cons.mpr ⟨fun y hy => ?_, ih h'.2 fun y hy =>
        hn y (List.mem_cons_of_mem x hy)⟩
      rcases mem_placeMark.mp hy with rfl | hy
      · exact (hn x List.mem_cons_self).symm
      · exact h'.1 y hy
    · exact marksDistinct_cons.mpr ⟨hn, h⟩

theorem dropMark_name {n : MarkName} {ms : List Mark} : ∀ x ∈ dropMark n ms, x.name ≠ n := by
  intro x hx
  simpa using (List.mem_filter.mp hx).2

/-- An insertion leaves a sound list sound. -/
theorem State.insertMark_sound {n : MarkName} {due : SiteTime} {s : State}
    (h : marksSound s.marks = true) : marksSound (s.insertMark n due).marks = true := by
  have hd : marksSound (dropMark n s.marks) = true := marksSound_filter h
  simp only [marksSound, Bool.and_eq_true] at hd
  simp only [State.insertMark, marksSound, Bool.and_eq_true]
  exact ⟨marksSorted_placeMark hd.1, marksDistinct_placeMark hd.2 dropMark_name⟩

end Sys2Proof.Machine
end

