-- ==== Sys2Proof/Tests/Slice0.lean ====
section
/-! SUPPORT. The model's own tests: ill-formed commands that WellFormed refuses, figures from the
manual's worked sequences (each comment names its section), and for every obligation with hypotheses
a concrete state and operands that meet them. -/

namespace Sys2Proof.Tests

open Sys2Proof Sys2Proof.Machine

-- One theorem at a time: kernel decisions made side by side would each hold a thread's stack.
set_option Elab.async false

/-! ## Helpers: small states -/

/-- A part whose start-up work is done, at a site time of so many seconds. -/
def liveAt (seconds : Nat) : State :=
  { State.reset with
    ready := true, clock := ⟨true, seconds * 1024, true, true, false⟩
    journal := { State.reset.journal with state := .ready, header := .right } }

/-- A part at site time 2,000,000. -/
def live : State := liveAt 2000000

/-- P04-T2-S1. -/
def p421 : Position := ⟨4, 2, 1⟩

/-- The design part of section 1.8. -/
def design : Design := ⟨6000, 600, 1950, 12000, 8000, 21500, 1800, 1, 1100⟩

/-- Its 17 bytes, as DECLARE sends them. -/
def designBytes : List Byte :=
  enc16 6000 ++ enc16 600 ++ enc16 1950 ++ enc16 12000 ++ enc16 8000 ++ enc16 21500 ++ enc16 1800 ++
    enc8 1 ++ enc16 1100

/-- A record at P04-T2-S1 in a state, with no optional parts. -/
def inState (st : AnchorState) : Anchor := ⟨p421, st, design, false, none, none, none, none⟩

/-- A grout part as a primary grouting leaves it, with its end time. -/
def grouted (t : Nat) : GroutPart := ⟨some t, some 2000, none, .complete, 0, [812, 813], 0, 0⟩

/-- A state whose register holds these records. -/
def holding (s : State) (records : List Anchor) : State :=
  { s with register := ⟨true, records, none⟩ }

/-- Profile 1 of section 8.11. -/
def profile : List Step :=
  [⟨100, 60, false, 0, .datum⟩, ⟨500, 60, false, 0, .none⟩, ⟨1000, 60, false, 0, .none⟩,
    ⟨1250, 600, true, 3600, .peak⟩, ⟨100, 60, false, 0, .ret⟩]

/-- The bytes of a submission from 01h on: parameter length, parameters. -/
def formOf (ps : List Byte) : List Byte := BitVec.ofNat 8 ps.length :: ps

/-- The request that a command is. -/
def reqOf (c : Instr) : Request := (asRequest c).getD ⟨0, 0, [], .every, false⟩

/-- The next state of an outcome, for tests. -/
def after (o : Host.Outcome State Fault Refusal) : State :=
  match o with
  | .next t => t
  | _ => State.reset

/-- The reply that a port's mailbox shows: status, length, data. -/
def replyAt (s : State) (p : PortNo) : List Byte :=
  (((s.ports.get p).mem.drop 129).take (2 + byteAt (s.ports.get p).mem 130))

/-- A reply of a status and data. -/
def reply (st : Status) (data : List Byte) : List Byte := st.code :: BitVec.ofNat 8 data.length :: data

/-! ## WellFormed: an ill-formed command for each check -/

/-- A submission stores at least one byte past the code. -/
theorem test_form_empty : Instr.wellFormed (.declare 0 []) = false := by decide +kernel

/-- The request area ends at 7Fh. -/
theorem test_form_too_long :
    Instr.wellFormed (.partStatus 0 (List.replicate 128 0)) = false := by decide +kernel

/-- UNKNOWN_REQUEST_SUBMISSION carries a code outside the catalogue. -/
theorem test_unknown_code_in_catalogue :
    Instr.wellFormed (.unknownRequestSubmission 0 0x58 [0]) = false := by decide +kernel

/-- Its form keeps the bounds of a submission. -/
theorem test_unknown_form_empty :
    Instr.wellFormed (.unknownRequestSubmission 0 0xFF []) = false := by decide +kernel

/-- A write transfer is no longer than the mailbox. -/
theorem test_transfer_too_long :
    Instr.wellFormed (.mailboxWrite 0 0 (List.replicate 257 0) true) = false := by decide +kernel

/-- An append makes at most four programmings. -/
theorem test_phases_too_many : Instr.wellFormed (.powerLoss 5 {}) = false := by decide +kernel

/-- The same for a start-up by the reset line. -/
theorem test_start_phases_too_many :
    Instr.wellFormed (.startUp .line ⟨⟨false, false⟩, ⟨false, false⟩, ⟨false, false⟩, ⟨false, false⟩,
      false, ⟨false, false⟩, ⟨false, false⟩⟩ 5 {}) = false := by decide +kernel

/-- A readback of an entry has eight bytes. -/
theorem test_entry_readback_short :
    Instr.wellFormed (.appendCompletion { entry := some [0] }) = false ∧
      Instr.wellFormed (.appendCompletion { retryEntry := some [0] }) = false ∧
      Instr.wellFormed (.startUpScanDone { spoiledEntry := some [0] }) = false := by decide +kernel

/-- A readback of the header has its 32 bytes. -/
theorem test_header_readback_short :
    Instr.wellFormed (.startUpScanDone { header := some (List.replicate 31 0) }) = false ∧
      Instr.wellFormed (.startUpScanDone { header := some (List.replicate 32 0) }) = true := by
  decide +kernel

/-- Panels are 1..32. -/
theorem test_panel_out_of_range :
    Instr.wellFormed (.stalenessExpiry 0) = false ∧
      Instr.wellFormed (.stalenessExpiry 33) = false := by decide +kernel

/-- Batch ids are 1..65535. -/
theorem test_batch_id_out_of_range :
    Instr.wellFormed (.batchExpiry 0) = false ∧
      Instr.wellFormed (.batchExpiry 65536) = false := by decide +kernel

/-- Well-formed commands at the bounds. -/
theorem test_well_formed_bounds :
    Instr.wellFormed (.declare 0 (List.replicate 127 0)) = true ∧
      Instr.wellFormed (.unknownRequestSubmission 3 0xFF [0]) = true ∧
      Instr.wellFormed (.mailboxWrite 0 255 (List.replicate 256 0) true) = true ∧
      Instr.wellFormed (.powerLoss 4 {}) = true ∧
      Instr.wellFormed (.stalenessExpiry 32) = true := by decide +kernel

/-- No row of the table gives bits. -/
theorem test_no_word_decodes : decodeTableWord 8 0 = none := by decide +kernel

/-! ## Figures of the manual's worked sequences -/

/-- Section 3.8: code 2633 gives p 4501 and L 6616. -/
theorem test_jack_load : ((live.jackSampleOf 2633).value, (live.jackSampleOf 2633).load) =
    (4501, 6616) := by decide +kernel

/-- Section 3.8: tension codes 1227, 1228, 1229 under FS 2000; grout code 1536 under FS 4000. -/
theorem test_scaled_codes : [scaleCode 1227 2000, scaleCode 1228 2000, scaleCode 1229 2000,
    scaleCode 1536 4000, scaleCode 4095 7000] = [599, 600, 600, 1500, 7000] := by decide +kernel

/-- Section 3.8: 3 counts of 2000 a metre are 1.5 mm, rounded to 2. -/
theorem test_paid_length :
    State.paidLength { live with meas := { live.meas with
      drum := ⟨1250003, ⟨false, false⟩, 0⟩, drumRef := 1250000 } } = 2 ∧
    State.paidLength { live with meas := { live.meas with
      drum := ⟨1293008, ⟨false, false⟩, 0⟩, drumRef := 1250000 } } = 21504 := by decide +kernel

/-- Section 3.8: -2.5 rounds to -3, and 305.5 to 306. -/
theorem test_displacement_rounds_away :
    State.displacement { live with meas := { live.meas with
      ram := ⟨40606, ⟨false, false⟩, 0⟩, ramDatum := some 40611 } } = -3 ∧
    State.travel { live with meas := { live.meas with
      ram := ⟨40611, ⟨false, false⟩, 0⟩, ramStart := 40000 } } = 306 := by decide +kernel

/-- Section 3.8: the edge 250 ms after the last is accepted, and one at 240 ms is bounce. -/
theorem test_stroke_edge_at_interval :
    (after (exec .strokeEdge { live with meas := { live.meas with
      strokeTimer := some 250, accepted := 2 } })).meas.accepted = 3 ∧
    (after (exec .strokeEdge { live with meas := { live.meas with
      strokeTimer := some 240, accepted := 3 } })).meas.bounce = 1 := by decide +kernel

/-- Section 3.8: the compare at 7000 fires at count 54,610 and hands on the sample of 6452. -/
theorem test_compare_fires :
    (after (exec (.countStep .ram ⟨true, false⟩) { live with meas := { live.meas with
      ram := ⟨54609, ⟨false, false⟩, 0⟩, ramDatum := some 40611, compare := some 7000
      jack := some ⟨2569, 4390, 6452, false, 0⟩ } })).deliveries =
      [.capture ⟨2569, 4390, 6452, false, 0⟩] ∧
    (after (exec (.countStep .ram ⟨true, false⟩) { live with meas := { live.meas with
      ram := ⟨54608, ⟨false, false⟩, 0⟩, ramDatum := some 40611, compare := some 7000
      jack := some ⟨2569, 4390, 6452, false, 0⟩ } })).meas.compare = some 7000 := by decide +kernel

/-- R49: both phases at once are a fault, counted, with the pin's pair kept. -/
theorem test_encoder_fault :
    (after (exec (.countStep .drum ⟨true, true⟩) live)).meas.drum = ⟨0, ⟨true, true⟩, 1⟩ := by
  decide +kernel

/-- R69: at 200 Hz a period is 5000 µs, and a driven duty of 600 is on for 3000 µs. -/
theorem test_on_time : periodMicros 200 = 5000 ∧ onTimeMicros 200 600 = 3000 := by decide +kernel

/-- Section 1.8, step 1: DECLARE places the record. -/
theorem test_declare :
    (after (exec (.declare 0 (formOf (enc8 4 ++ enc8 2 ++ enc8 1 ++ designBytes))) live)).register.records =
      [inState .declared] := by decide +kernel

/-- Section 1.8, step 6: 63,600 s remain of the cure, which is 18 h. -/
theorem test_hours_to_cure :
    Anchor.hoursToCure 168 5581200 { inState .grouted with grout := some (grouted 5040000) } = some 18 ∧
    Anchor.hoursToCure 168 5650000 { inState .grouted with grout := some (grouted 5040000) } = none := by
  decide +kernel

/-- Section 1.9, step 3: WITHDRAW of P04-T2-S2 closes the gap. -/
theorem test_withdraw :
    (after (exec (.withdraw 0 (formOf [4, 2, 2])) (holding live
      [inState .placed, { inState .declared with pos := ⟨4, 2, 2⟩ }]))).register.records =
      [inState .placed] := by decide +kernel

/-- Section 1.9, step 8: NEXT past the last record is NO_RECORD, and the cursor stays. -/
theorem test_next_at_the_last :
    let t := after (exec (.nextRecord 2 (formOf [])) { holding live [inState .placed] with
      ports := { live.ports with lp2 := { live.ports.lp2 with cursor := some p421 } } })
    replyAt t 2 = reply .noRecord [] ∧ t.ports.lp2.cursor = some p421 := by decide +kernel

/-- Section 1.9, step 1: SEEK without parameters. -/
theorem test_seek_before_first :
    (after (exec (.seek 2 (formOf [])) { live with
      ports := { live.ports with lp2 := { live.ports.lp2 with cursor := some p421 } } })).ports.lp2.cursor =
      none := by decide +kernel

/-- R24: INSPECT of a position without a record. -/
theorem test_inspect_no_anchor :
    replyAt (after (exec (.inspect 1 (formOf [4, 2, 1])) live)) 1 = reply .noAnchor [] := by
  decide +kernel

/-- R21: a SHORT anchor with post count 1 may still be grouted, one with 2 may be abandoned. -/
theorem test_abandon :
    replyAt (after (exec (.abandon 0 (formOf [4, 2, 1])) (holding live
      [{ inState .short with grout := some { grouted 0 with postCount := 1 } }]))) 0 =
        reply .wrongState [] ∧
    ((after (exec (.abandon 0 (formOf [4, 2, 1])) (holding live
      [{ inState .short with grout := some { grouted 0 with postCount := 2 } }]))).register.records.map
        Anchor.state) = [.abandoned] := by decide +kernel

/-- Section 2.9: SET_TIME 1,001,600 at 1,001,000 + 410/1024. -/
theorem test_set_time :
    let t := after (exec (.setTime 2 (formOf (enc32 1001600)))
      { live with clock := ⟨true, 1001000 * 1024 + 410, true, true, false⟩ })
    replyAt t 2 = reply .ok (enc32 1001000 ++ enc16 410 ++ enc32 1001600 ++ enc16 0) ∧
      t.clock.time = 1001600 * 1024 := by decide +kernel

/-- Section 2.10: +999 ms are 1023 fractions, -500 ms are -512. -/
theorem test_shift_time :
    (after (exec (.shiftTime 2 (formOf (encS16 999))) (liveAt 5651200))).clock.time =
      5651200 * 1024 + 1023 ∧
    (after (exec (.shiftTime 2 (formOf (encS16 (-500)))) (liveAt 5651400))).clock.time =
      5651399 * 1024 + 512 := by decide +kernel

/-- R27: the fraction carries into the seconds. -/
theorem test_site_clock_tick :
    (after (exec .siteClockTick { live with clock := ⟨true, 1023, true, true, false⟩ })).clock.time =
      1024 := by decide +kernel

/-- R27: at the last value, 4,294,967,295 seconds with fraction 1023, the clock stops; a SHIFT_TIME moves
it back but it stands there, until a SET_TIME starts it again. -/
theorem test_site_clock_stops :
    let s := after (exec .siteClockTick
      { live with clock := ⟨true, 4294967295 * 1024 + 1022, true, true, false⟩ })
    let t := after (exec (.shiftTime 2 (formOf (encS16 (-500)))) s)
    let u := after (exec .siteClockTick t)
    s.clock = ⟨true, 4294967295 * 1024 + 1023, true, true, true⟩ ∧
    t.clock.time = 4294967295 * 1024 + 511 ∧ u.clock = t.clock ∧
    (after (exec .siteClockTick (after (exec (.setTime 2 (formOf (enc32 1)))
      { u with ports := live.ports })))).clock = ⟨true, 1024 + 1, true, true, false⟩ := by
  decide +kernel

/-- R28: the domain without supply loses its marker. -/
theorem test_clock_domain_supply_loss :
    (after (exec .clockDomainSupplyLoss live)).clock.marker = false := by decide +kernel

/-- R53: the timer stops at 65,535. -/
theorem test_stroke_timer_tick :
    (after (exec .strokeTimerTick { live with meas := { live.meas with
      strokeTimer := some 65535 } })).meas.strokeTimer = some 65535 := by decide +kernel

/-- Section 2.8, step 3: the mark due at 1,000,890 becomes the head. -/
theorem test_mark_order :
    (State.insertMark (.staleness 5) (1000890 * 1024) { live with
      marks := [⟨1000900 * 1024, .staleness 3⟩, ⟨1000900 * 1024, .staleness 4⟩] }).marks =
      [⟨1000890 * 1024, .staleness 5⟩, ⟨1000900 * 1024, .staleness 3⟩,
        ⟨1000900 * 1024, .staleness 4⟩] := by decide +kernel

/-- Section 4.8: at step 3 the winch waits, and at step 4 the release of 30 grants it. -/
theorem test_release_grants_the_head :
    let s := { live with
      supply := ⟨⟨.queued, 0⟩, ⟨.granted, 30⟩, ⟨.granted, 15⟩, [⟨.winch, 25⟩], false, false⟩
      deliveries := [.release .grout] }
    (after (exec (.release .grout) s)).supply =
      ⟨⟨.granted, 25⟩, ⟨.none, 0⟩, ⟨.granted, 15⟩, [], false, false⟩ ∧
    (after (exec (.release .grout) s)).deliveries = [.grant .winch] := by decide +kernel

/-- Section 4.8, step 5: a claim of 30 finds 20 free and waits. -/
theorem test_claim_waits :
    (after (exec (.claim .grout) { live with
      supply := ⟨⟨.granted, 25⟩, ⟨.none, 0⟩, ⟨.granted, 15⟩, [], false, false⟩
      deliveries := [.claim .grout 30] })).supply.queue = [⟨.grout, 30⟩] := by decide +kernel

/-- Section 4.9, step 2: the trip withdraws the grants and closes the valves. -/
theorem test_trip_line_assertion :
    let t := after (exec .tripLineAssertion { live with
      supply := ⟨⟨.none, 0⟩, ⟨.granted, 30⟩, ⟨.granted, 15⟩, [], false, false⟩
      outputs := ⟨⟨0, 0, 200⟩, ⟨700, 700, 200⟩, ⟨600, 600, 200⟩, ⟨0, 0, 200⟩⟩ })
    t.supply = ⟨⟨.none, 0⟩, ⟨.none, 0⟩, ⟨.none, 0⟩, [], true, true⟩ ∧ t.outputs.isOff = true := by
  decide +kernel

/-- Section 4.9, steps 3 and 4: LINE_ACTIVE while the line is low; its release leaves the latch. -/
theorem test_clear_trip_line_active :
    replyAt (after (exec (.clearTrip 0 (formOf [])) { live with
      supply := .atStartUp true })) 0 = reply .lineActive [] ∧
    (after (exec .tripLineRelease { live with supply := .atStartUp true })).supply.latched = true := by
  decide +kernel

/-- Section 4.9, step 6: JACK_ADVANCE set to 150 reaches the pin at the next period. -/
theorem test_valve_period_start :
    (after (exec (.valvePeriodStart .jackAdvance) { live with
      outputs := { live.outputs with jackAdvance := ⟨150, 0, 200⟩ } })).outputs.jackAdvance =
      ⟨150, 150, 200⟩ := by decide +kernel

/-- Section 5.9: the panels before the request. -/
def wall : State :=
  { live with panels := (((live.panels.set 2 ⟨.stale, some (120, 1999000), 0, 8⟩).set 3
      ⟨.clear, some (-170, 1999400), 0, 11⟩).set 4 ⟨.clear, some (230, 1999400), 0, 9⟩) }

/-- Section 5.9: six readings, 3 taken and 3 dropped, OK_CLAMPED. -/
theorem test_post_wall :
    let t := after (exec (.postWall 2 (formOf (enc8 6 ++
      (enc8 4 ++ encS16 (-180) ++ enc32 1999990) ++ (enc8 5 ++ encS16 262 ++ enc32 1999995) ++
      (enc8 17 ++ encS16 40 ++ enc32 1999995) ++ (enc8 5 ++ encS16 3400 ++ enc32 1999996) ++
      (enc8 3 ++ encS16 100 ++ enc32 2000075) ++ (enc8 3 ++ encS16 100 ++ enc32 1999000)))) wall)
    replyAt t 2 = reply .okClamped [3, 3, 1, 1, 3, 2, 4, 5] ∧
    panelAt t.panels 5 = ⟨.action, some (3000, 1999996), 0, 11⟩ ∧
    t.deliveries = [.panelChange 5 .clear .alert, .panelChange 5 .alert .action] := by decide +kernel

/-- Section 2.8, step 5: panel 5's mark expires. -/
theorem test_staleness_expiry :
    (panelAt (after (exec (.stalenessExpiry 5) { wall with
      marks := [⟨2000000 * 1024, .staleness 5⟩] })).panels 5) =
      ⟨.stale, some (230, 1999400), 0, 10⟩ := by decide +kernel

/-- R77: two panels from panel 15 of 16. -/
theorem test_read_panels_ends_at_the_count :
    ((replyAt (after (exec (.readPanels 1 (formOf [15, 8])) live)) 1).take 3) = [0, 31, 2] := by
  decide +kernel

/-- Section 6.9, step 2: a tension of 612 at run, 9,870 mm paid out, is timed for 1 s. -/
theorem test_jam_timing :
    let t := after (exec (.tensionSample 1253) { holding live [inState .placing] with
      winch := { live.winch with state := .run, anchor := some p421, slowBoundary := some 19500 } })
    t.winch.tension = 612 ∧ t.marks = [⟨2000001 * 1024, .jam⟩] := by decide +kernel

/-- Section 6.9, step 5: the jam is counted and the winch stops. -/
theorem test_jam_expiry :
    let t := after (exec .jamExpiry { holding live [inState .placing] with
      marks := [⟨2000000 * 1024, .jam⟩]
      winch := { live.winch with state := .run, anchor := some p421, jamTiming := true } })
    (t.winch.state, t.winch.reason, t.winch.jamCount) = (.stopped, some .jam, 1) := by decide +kernel

/-- Section 6.10, step 6, and R100: CONTINUE_WINCH claims again, but not after a third jam. -/
theorem test_continue_winch :
    (after (exec (.continueWinch 0 (formOf [])) { live with winch := { live.winch with
      state := .stopped, reason := some .trip, anchor := some p421 } })).deliveries =
      [.claim .winch 25] ∧
    replyAt (after (exec (.continueWinch 0 (formOf [])) { live with winch := { live.winch with
      state := .stopped, reason := some .jam, jamCount := 3, anchor := some p421 } })) 0 =
      reply .limit [] := by decide +kernel

/-- Section 6.9, the end: ABORT_WINCH after three jams. -/
theorem test_abort_winch :
    (after (exec (.abortWinch 0 (formOf [])) { holding live [inState .placing] with
      winch := { live.winch with
        state := .stopped, reason := some .jam, jamCount := 3, anchor := some p421 } })).register.records =
      [{ inState .declared with placement := some ⟨none, 3, 1⟩ }] := by decide +kernel

/-- Section 6.9: the slow boundary of a tendon of 21500 is 19500. -/
theorem test_start_winch :
    (after (exec (.startWinch 0 (formOf [4, 2, 1]))
      (holding live [inState .declared]))).winch.slowBoundary = some 19500 := by decide +kernel

/-- Section 1.8, step 4, with the limit round-up of 7.10: 1800 x 1.1 = 1980. -/
theorem test_start_grout :
    let t := after (exec (.startGrout 0 (formOf [4, 2, 1, 1])) (holding live [inState .placed]))
    t.grout.limit = some 1980 ∧ t.grout.state = .waitBatch := by decide +kernel

/-- Section 7.10, step 3: batch 901 gives 15, and 10 find no batch. -/
theorem test_stroke_empties_the_queue :
    let t := after (exec .stroke { holding live [inState .grouting] with
      batches := [⟨901, 0, 400, 790, 60, 3600, 15⟩]
      deliveries := [.stroke 0 none]
      grout := { live.grout with
        state := .pumping, anchor := some p421, mode := some .primary, limit := some 1320
        injected := 775, strokes := 31, batchIds := [901] } })
    (t.grout.state, t.grout.pause, t.grout.injected, t.grout.unattributed, t.batches) =
      (.paused, some .batch, 800, 10, []) ∧
    t.marks = [⟨2001200 * 1024, .coldJoint⟩] := by decide +kernel

/-- Section 7.10, step 8: the stroke is split over two batches. -/
theorem test_stroke_is_split :
    let c := chargeQueue 25 [⟨902, 0, 400, 410, 60, 3600, 10⟩, ⟨903, 0, 400, 600, 60, 3600, 600⟩]
    (c.queue.map Batch.remaining, c.used, c.gave, c.left) = ([585], [902], [902, 903], 0) := by
  decide +kernel

/-- Section 7.11, steps 3 to 5: 1510 holds, 1360 holds on, 1340 pumps again. -/
theorem test_refusal_hold :
    let pumping := { live with
      batches := [⟨905, 0, 400, 500, 60, 3600, 400⟩]
      grout := { live.grout with
        state := .pumping, anchor := some p421, mode := some .post, limit := some 360 } }
    let held := { pumping with grout := { pumping.grout with state := .refusalHold } }
    (after (exec (.groutSample 1546) pumping)).marks = [⟨2000300 * 1024, .refusal⟩] ∧
    (after (exec (.groutSample 1392) held)).grout.state = .refusalHold ∧
    (after (exec (.groutSample 1372) held)).grout.state = .pumping := by decide +kernel

/-- Section 7.11, step 8: the REFUSAL mark ends a post-grouting GROUTED. -/
theorem test_refusal_expiry :
    ((after (exec .refusalExpiry { holding live
        [{ inState .grouting with work := some ⟨.groutPost, some .failed, 0⟩ }] with
      marks := [⟨2000000 * 1024, .refusal⟩]
      grout := { live.grout with
        state := .refusalHold, anchor := some p421, mode := some .post, injected := 150 } })).register.records.map
      fun a => (a.state, a.groutPart.post, a.groutPart.postCount)) = [(.grouted, some 150, 1)] := by
  decide +kernel

/-- Section 7.12, step 4: a cold joint ends a primary grouting SHORT. -/
theorem test_cold_joint_expiry :
    ((after (exec .coldJointExpiry { holding live
        [{ inState .grouting with work := some ⟨.groutPrimary, none, 0⟩ }] with
      marks := [⟨2000000 * 1024, .coldJoint⟩]
      grout := { live.grout with
        state := .waitFlow, anchor := some p421, mode := some .primary, injected := 750
        strokes := 30 } })).register.records.map Anchor.state) = [.short] := by decide +kernel

/-- Section 7.12, step 5: CONTINUE_GROUT of an IDLE engine; ABORT_GROUT likewise. -/
theorem test_continue_grout_idle :
    replyAt (after (exec (.continueGrout 0 (formOf [])) live)) 0 = reply .wrongState [] ∧
    replyAt (after (exec (.abortGrout 0 (formOf [])) live)) 0 = reply .wrongState [] := by
  decide +kernel

/-- Section 2.8, step 2: batch 812 expires at 1,001,500. -/
theorem test_post_batch :
    let t := after (exec (.postBatch 1 (formOf
      (enc16 812 ++ enc32 999700 ++ enc16 400 ++ enc16 1000 ++ enc8 30))) (liveAt 1000010))
    replyAt t 1 = reply .ok (enc32 1001500 ++ [1]) ∧
    t.marks = [⟨1001500 * 1024, .expiry 812⟩] := by decide +kernel

/-- R111: the reply gives what the batch had left. -/
theorem test_discard_batch :
    replyAt (after (exec (.discardBatch 0 (formOf (enc16 903))) { live with
      batches := [⟨903, 0, 400, 600, 60, 3600, 485⟩] })) 0 = reply .ok (enc16 485) := by decide +kernel

/-- Section 7.12, step 2: the only batch expires in WAIT_FLOW. -/
theorem test_batch_expiry :
    (after (exec (.batchExpiry 910) { live with
      marks := [⟨2000000 * 1024, .expiry 910⟩]
      batches := [⟨910, 0, 400, 600, 60, 3600, 485⟩]
      grout := { live.grout with state := .waitFlow, anchor := some p421 } })).grout.state =
      .waitBatch := by decide +kernel

/-- Section 5.10 and 8.11: permits on panel 4, and a cured anchor. -/
def permitted : State :=
  { holding (liveAt 5650000)
      [{ inState .grouted with grout := some (grouted 5040000) }] with
    settings := { live.settings with profile1 := some profile }
    panels := (((live.panels.set 2 ⟨.clear, some (0, 5649900), 19500, 0⟩).set 3
      ⟨.clear, some (0, 5649900), 12800, 0⟩).set 4 ⟨.clear, some (0, 5649900), 8000, 0⟩) }

/-- Section 11.7, step 1: the reply of 13 bytes. -/
theorem test_start_test :
    replyAt (after (exec (.startTest 0 (formOf [4, 2, 1])) permitted)) 0 =
      reply .ok ([5] ++ enc16 600 ++ enc16 3000 ++ enc16 6000 ++ enc16 7500 ++ enc16 600 ++
        enc16 6600) := by decide +kernel

/-- Section 5.10, third variation: IMBALANCE, panel 5, 11400. -/
theorem test_start_test_imbalance :
    replyAt (after (exec (.startTest 0 (formOf [4, 2, 1])) { permitted with
      settings := { permitted.settings with imbalanceLimit := 10000 } })) 0 =
      reply .imbalance ([5] ++ enc32 11400) := by decide +kernel

/-- A test on P04-T2-S1 in a state of the stress engine, at so many seconds since its start. -/
def testing (st : StressState) (step since : Nat) : State :=
  { holding (liveAt (5650000 + since))
      [{ inState .testing with work := some ⟨.test, some .grouted, 5650000⟩ }] with
    settings := permitted.settings, panels := permitted.panels
    stress := { live.stress with
      state := st, anchor := some p421, design := some design, steps := profile
      targets := [600, 3000, 6000, 7500, 600], pLock := some 6600
      start := some (5650000 * 1024), step := some step
      latest := some ⟨0, 7498, false, 7946, 8000⟩ } }

/-- Section 8.11, 900 s: three marks at the hold start (code 2986 gives L 7504). -/
theorem test_hold_marks :
    (after (exec (.jackSample 2986) { testing .stepRamp 4 900 with
      stress := { (testing .stepRamp 4 900).stress with dir := .up } })).marks =
      [⟨5650960 * 1024, .creep 4 .base⟩, ⟨5651260 * 1024, .creep 4 .extended⟩,
        ⟨5651500 * 1024, .holdEnd 4⟩] := by decide +kernel

/-- Section 8.11, 1100 s: a load below 7480 starts a make-up (code 2976 gives L 7478). -/
theorem test_make_up :
    let t := after (exec (.jackSample 2976) (testing .stepHold 4 1100))
    t.stress.makeUps = 1 ∧ t.outputs.jackAdvance.set = 150 := by decide +kernel

/-- Section 8.11, 960 s: the MARK reading of the base point. -/
theorem test_creep_expiry :
    (after (exec .creepExpiry { testing .stepHold 4 960 with
      marks := [⟨5650960 * 1024, .creep 4 .base⟩] })).stress.log =
      [⟨4, .mark, 960, 7498, 7946⟩] := by decide +kernel

/-- Section 8.11, 1500 s: α is 7946 - 7830 = 116 and passes. -/
theorem test_creep_passes :
    let s := testing .stepHold 4 1500
    let t := after (exec .holdEndExpiry { s with
      marks := [⟨5651500 * 1024, .holdEnd 4⟩]
      stress := { s.stress with log := [⟨4, .mark, 960, 7495, 7830⟩] } })
    t.stress.creep = [⟨4, 116, none⟩] ∧ (t.stress.state, t.stress.step) = (.stepRamp, some 5) := by
  decide +kernel

/-- Section 8.11, the variation: α 220 fails, and the hold is extended to 4500 s. -/
theorem test_hold_is_extended :
    let s := testing .stepHold 4 1500
    (after (exec .holdEndExpiry { s with
      marks := [⟨5651500 * 1024, .holdEnd 4⟩]
      stress := { s.stress with
        holdStart := some (5650900 * 1024), log := [⟨4, .mark, 960, 7495, 7830⟩]
        latest := some ⟨0, 7498, false, 8050, 8000⟩ } })).marks =
      [⟨5654500 * 1024, .holdEnd 4⟩] := by decide +kernel

/-- The readings of steps 1, 4 and 5 of section 8.11. -/
def stepEnds : List Reading :=
  [⟨1, .stepEnd, 100, 601, 0⟩, ⟨4, .stepEnd, 1500, 7498, 7946⟩, ⟨5, .stepEnd, 1680, 603, 1003⟩]

/-- Section 9.7: ΔP 6897, Δs_e 6943, L_app 11778, accepted. -/
theorem test_free_length :
    let s := testing .stepHold 5 1680
    let t := State.evaluateLength { s with stress := { s.stress with log := stepEnds } }
    t.stress.lengths = some ⟨601, 7498, 7946, 1003, 6897, 6943, 11778⟩ ∧
    (t.stress.state, t.stress.lock.target) = (.lockRamp, some 6600) := by decide +kernel

/-- Section 9.7, 1936 s: the draw-in is -5, and the compare point 7000. -/
theorem test_seat_expiry :
    let s := testing .seating 5 1936
    let t := after (exec .seatExpiry { s with
      marks := [⟨5651936 * 1024, .seat 5⟩]
      stress := { s.stress with
        latest := some ⟨0, 41, false, 6955, 7000⟩
        lock := { s.stress.lock with sLock := some 6950, seatInserted := true } } })
    (t.stress.lock.drawIn, t.meas.compare, t.stress.state) = (some (-5), some 7000, .liftCheck) := by
  decide +kernel

/-- Section 9.7: capture 6452 is ACCEPTED; capture 6150 is retried to 7050. -/
theorem test_lift_off_capture :
    let s := { testing .liftCheck 5 1979 with
      deliveries := [.capture ⟨2569, 4390, 6452, false, 0⟩] }
    let u := { s with deliveries := [.capture ⟨2449, 4186, 6150, false, 0⟩] }
    (after (exec .liftOffCapture s)).stress.pendingEnd = some .accepted ∧
    (after (exec .liftOffCapture u)).stress.lock.target = some 7050 := by decide +kernel

/-- Section 9.7: a first lift at 7261 retries to 5939; a second at 6200 is LOCKOFF_DEVIATION. -/
theorem test_lift_variations :
    (State.decideLift 7261 (testing .liftCheck 5 1979)).stress.lock.target = some 5939 ∧
    (let s := testing .liftCheck 5 1979
     (State.decideLift 6200 { s with stress := { s.stress with
       lock := { s.stress.lock with retries := 1 } } }).stress.lock.result) =
      some .lockoffDeviation := by decide +kernel

/-- Section 8.12: panel 5 at ACTION suspends the ramp, and at ALERT resumes it. -/
theorem test_panel_change_delivery :
    let s := testing .stepRamp 3 560
    let held := { s with
      panels := s.panels.set 4 ⟨.action, some (410, 5650500), 0, 1⟩
      deliveries := [.panelChange 5 .clear .action] }
    let t := after (exec .panelChangeDelivery held)
    (t.stress.state, t.stress.suspensions, t.marks) =
      (.suspended, 1, [⟨5652360 * 1024, .suspension 3⟩]) ∧
    (after (exec .panelChangeDelivery { t with
      panels := s.panels.set 4 ⟨.alert, some (320, 5650550), 0, 2⟩
      deliveries := [.panelChange 5 .action .alert] })).stress.state = .stepRamp := by decide +kernel

/-- Section 8.12, the variation: the SUSPENSION mark aborts with ABORTED_WALL. -/
theorem test_suspension_expiry :
    (after (exec .suspensionExpiry { testing .suspended 3 2400 with
      marks := [⟨5652400 * 1024, .suspension 3⟩] })).stress.pendingEnd = some .abortedWall := by
  decide +kernel

/-- Section 8.13: the trip in STEP_HOLD, ABORT_TEST then, and the clear. -/
theorem test_trip_in_hold :
    let t := after (exec (.tripNotice .stress) { testing .stepHold 4 1200 with
      deliveries := [.tripNotice .stress] })
    (t.stress.state, t.stress.tripWait, t.stress.pendingEnd) =
      (.unloading, true, some .abortedTrip) ∧
    replyAt (after (exec (.abortTest 0 (formOf [])) t)) 0 = reply .wrongState [] ∧
    (after (exec (.clearNotice .stress)
      { t with deliveries := [.clearNotice .stress] })).outputs.jackRelease.set = 600 := by
  decide +kernel

/-- Section 8.13, 1513 s: L 47 ends the test, and the anchor is GROUTED again (code 19). -/
theorem test_unloaded :
    let s := testing .unloading 4 1513
    ((after (exec (.jackSample 19) { s with stress := { s.stress with
      pendingEnd := some .abortedTrip } })).register.records.map
        fun a => (a.state, a.testPart.count, a.testPart.last)) =
      [(.grouted, 1, .abortedTrip)] := by decide +kernel

/-- Section 8.11, time 0: the grant finds the wall quiet. -/
theorem test_grant_starts_the_ramp :
    (after (exec (.grant .stress) { testing .waitFlow 1 0 with
      deliveries := [.grant .stress] })).stress.state = .stepRamp := by decide +kernel

/-- Section 10.6: a journal of 37 entries with its append point at 26,432 has room 235,416. -/
def journal37 : Journal :=
  { live.journal with count := 37, appendPoint := 26432, lastCert := some 36 }

theorem test_room : journal37.room = 235416 := by decide +kernel

/-- Section 10.6: a record of 230 bytes of 1, its append in flight. -/
def appending : State :=
  { holding live [inState .recording] with
    register := ⟨true, [{ inState .recording with test := some ⟨1, .accepted, some 116, some 11778,
      none, none⟩ }], some ⟨List.replicate 230 1, p421, 1, .accepted, some 6452⟩⟩
    journal := { journal37 with
      state := .appending, inFlight := some ⟨.certificate, List.replicate 230 1, .register⟩ } }

/-- Section 10.6, step 3, and 1.8, step 9: entry 37; append point 26,672; LOCKED with index 37. -/
theorem test_append_completion :
    let t := after (exec (.appendCompletion {}) appending)
    (t.journal.count, t.journal.appendPoint, t.journal.room) = (38, 26672, 235168) ∧
    (t.journal.array.entry 37).start = 1652 * 16 ∧
    (t.register.records.map fun a => (a.state, a.testPart.residual, a.testPart.index)) =
      [(.locked, some 6452, some 37)] ∧
    (panelAt t.panels 4).lockedSum = 6452 := by decide +kernel

/-- Section 10.6, steps 2' to 5': a spoiled record, and entry 38. -/
theorem test_append_with_spoiled_write :
    let t := after (exec (.appendCompletion { record := some (List.replicate 230 3) }) appending)
    (t.journal.count, t.journal.appendPoint, t.journal.room) = (39, 26912, 234920) ∧
    t.journal.lastCert = some 38 := by decide +kernel

/-- R177: an entry number at the entry count is NO_RECORD. -/
theorem test_read_journal_no_record :
    replyAt (after (exec (.readJournal 1 (formOf (enc16 37 ++ enc16 0 ++ enc8 1)))
      { live with journal := journal37 })) 1 = reply .noRecord [] := by decide +kernel

/-- Section 10.7, steps 1 and 2: action 300 over alert 350 is clamped to 351. -/
theorem test_stage_setting :
    let t := after (exec (.stageSetting 0 (formOf (enc8 15 ++ enc16 350))) live)
    replyAt t 0 = reply .ok (enc8 15 ++ enc16 350) ∧
    replyAt (after (exec (.stageSetting 0 (formOf (enc8 16 ++ enc16 300))) t)) 0 =
      reply .okClamped (enc8 16 ++ enc16 351) := by decide +kernel

/-- Section 8.11: profile 1 passes its check. -/
theorem test_stage_profile :
    (after (exec (.stageProfile 0 (formOf ([1, 5] ++ profile.flatMap encStep))) live)).staging =
      some ⟨0, { live.settings with profile1 := some profile }⟩ := by decide +kernel

/-- R178: an image held by another port; DROP_STAGING by its holder. -/
theorem test_drop_staging :
    replyAt (after (exec (.dropStaging 0 (formOf [])) { live with
      staging := some ⟨3, live.settings⟩ })) 0 = reply .stagingHeld [] ∧
    (after (exec (.dropStaging 0 (formOf [])) { live with
      staging := some ⟨0, live.settings⟩ })).staging = none := by decide +kernel

/-- Section 10.7, steps 5 and 6: NOT_IDLE while pumping; then the mailbox is BUSY. -/
theorem test_commit_settings :
    replyAt (after (exec (.commitSettings 0 (formOf [])) { live with
      staging := some ⟨0, live.settings⟩
      grout := { live.grout with state := .pumping } })) 0 = reply .notIdle [] ∧
    (after (exec (.commitSettings 0 (formOf [])) { live with
      staging := some ⟨0, live.settings⟩ })).ports.lp0.mailState = .busy := by decide +kernel

/-- Section 11.7, steps 5 and 6: the events of LP0 with codes 5, 6 and 12 pending. -/
def pendingEvents : State :=
  { live with ports := { live.ports with
      lp0 := { live.ports.lp0 with flags := 0x0830, mask := 0xC02F } } }

theorem test_read_events :
    replyAt (after (exec (.readEvents 0 (formOf [])) pendingEvents)) 0 =
      reply .ok [6, 0x30, 0x08, 0x2F, 0xC0] := by decide +kernel

theorem test_clear_events :
    let t := after (exec (.clearEvents 0 (formOf [0x30, 0x08])) pendingEvents)
    replyAt t 0 = reply .ok [0, 0] ∧ t.ports.lp0.attentionLow = false := by decide +kernel

/-- Section 11.7: LP0 enables code 6. -/
theorem test_set_mask :
    (after (exec (.setMask 0 (formOf [0x2F, 0xC0])) live)).ports.lp0.mask = 0xC02F := by
  decide +kernel

/-- R192: sections 0 and 6 answer 59 and 25 bytes; there is no section 7. -/
theorem test_part_status :
    ((replyAt (after (exec (.partStatus 1 (formOf [0])) live)) 1).take 2 = [0, 59]) ∧
    ((replyAt (after (exec (.partStatus 1 (formOf [6])) live)) 1).take 2 = [0, 25]) ∧
    replyAt (after (exec (.partStatus 1 (formOf [7])) live)) 1 = reply .outOfRange [] := by
  decide +kernel

/-- Section 11.7, step 3: a POST_WALL with no parameters is BAD_FORM, sent as a write transfer. -/
theorem test_mailbox_write :
    replyAt (after (exec (.mailboxWrite 2 0 [0x38, 0x00] true) live)) 2 = [0x04, 0x00] := by
  decide +kernel

/-- R184: a code outside the catalogue. -/
theorem test_unknown_request :
    replyAt (after (exec (.unknownRequestSubmission 0 0xFF [0]) live)) 0 =
      reply .unknownRequest [] := by decide +kernel

/-- R184: before the scan is done, and once it is. -/
theorem test_not_ready :
    replyAt (after (exec (.partStatus 0 (formOf [0])) State.reset)) 0 = reply .notReady [] ∧
    replyAt (after (exec (.inspect 0 (formOf [4, 2, 1]))
      (after (exec (.startUpScanDone {}) State.reset)))) 0 = reply .noAnchor [] := by decide +kernel

/-- Section 1.8, the last paragraph: power lost in step 7. -/
theorem test_fix_up :
    ((after (exec (.startUpScanDone {}) { holding State.reset
        [{ inState .testing with work := some ⟨.test, some .grouted, 5650000⟩ }] with
      powered := true })).register.records.map
        fun a => (a.state, a.testPart.count, a.testPart.last, a.interrupted)) =
      [(.grouted, 1, .abortedPower, true)] := by decide +kernel

/-- R67, R181: a start-up with the trip line low and straps of LP3 at SURVEY. -/
theorem test_start_up :
    let t := after (exec (.startUp .line ⟨⟨false, true⟩, ⟨true, false⟩, ⟨true, true⟩, ⟨true, true⟩,
      true, ⟨true, false⟩, ⟨false, false⟩⟩ 0 {}) live)
    (t.ports.lp0.role, t.ports.lp1.role, t.ports.lp3.role) = (.console, .field, .survey) ∧
    t.supply.latched = true ∧ t.ready = false ∧ t.clock.time = 2000000 * 1024 := by decide +kernel

/-- R1: after a loss of the main supply the register and the clock are kept. -/
theorem test_power_loss :
    let t := after (exec (.powerLoss 0 {}) (holding live [inState .placed]))
    t.powered = false ∧ t.register.records = [inState .placed] ∧ t.clock = live.clock := by
  decide +kernel

/-- R33, R39: marks made due by SHIFT_TIME are gone before the next command, in due order, whatever
that command is, and a later shift back finds none. -/
theorem test_due_marks_expire_first :
    let s := { wall with
      clock := ⟨true, 2000000 * 1024, true, true, false⟩
      marks := [⟨2000000 * 1024 + 5, .staleness 5⟩, ⟨2000000 * 1024 + 6, .staleness 4⟩] }
    let t := after (exec (.shiftTime 2 (formOf (encS16 10))) s)
    let u := after (exec (.shiftTime 2 (formOf (encS16 (-10)))) t)
    t.marks = s.marks ∧ u.marks = [] ∧ u.clock.time = 2000000 * 1024 ∧
    u.deliveries = [.panelChange 5 .clear .stale, .panelChange 4 .clear .stale] := by decide +kernel

/-- R62: a grant waits for an older one to another engine. -/
theorem test_grants_keep_their_order :
    let s := { live with
      winch := { live.winch with state := .waitFlow, slowBoundary := some 19500 }
      deliveries := [.grant .stress, .grant .winch] }
    (after (exec (.grant .winch) s)).winch.state = .waitFlow ∧
    (after (exec (.grant .winch) (after (exec (.grant .stress) s)))).winch.state = .run := by
  decide +kernel

/-- R58: a release in flight is back before a commit's settings come into force. -/
theorem test_release_before_new_settings :
    let t := after (exec (.appendCompletion {}) { live with
      supply := ⟨⟨.granted, 25⟩, ⟨.none, 0⟩, ⟨.none, 0⟩, [], false, false⟩
      deliveries := [.release .winch]
      staging := some ⟨0, live.settings.stage 9 10⟩
      journal := { journal37 with
        state := .appending, inFlight := some ⟨.settings, [1, 2, 3], .commit 0⟩ } })
    (t.supply.granted, t.settings.capacity, t.deliveries, t.ports.lp0.mailState) =
      (0, 10, [], .done) := by decide +kernel

/-- R168: a header whose programming reads back blank is absent still, and the journal in FAULT. -/
theorem test_header_reads_back_blank (h : List.replicate 32 0 ≠ headerBytes) :
    let t := State.reset.journal.startScan { header := some (List.replicate 32 0) }
    (t.1.header, t.1.state) = (.absent, .fault) := by
  have hl : Header.left (some (List.replicate 32 0)) = .absent := (if_neg h).trans (if_pos rfl)
  have hc : State.reset.journal.checkHeader (some (List.replicate 32 0)) =
      ({ State.reset.journal with header := .absent }, false) := by
    rw [Journal.checkHeader, if_pos (show State.reset.journal.header = .absent from rfl), hl]; rfl
  rw [Journal.startScan, hc]; rfl

/-- R168: a header that reads back as it was programmed is right, and the scan goes on. -/
theorem test_header_reads_back_right :
    let t := State.reset.journal.startScan { header := some headerBytes }
    (t.1.header, t.1.state) = (.right, .ready) := by
  have hc : State.reset.journal.checkHeader (some headerBytes) =
      ({ State.reset.journal with header := .right }, true) := by
    rw [Journal.checkHeader, if_pos (show State.reset.journal.header = .absent from rfl), Header.left_headerBytes]; rfl
  rw [Journal.startScan, hc]; decide +kernel

/-- R181, R182: 38h for port 0 and 3Bh for port 3; no answer at another address or a disabled port;
80h, and not 7Fh, of a BUSY mailbox. -/
theorem test_read_transfers :
    let s := { live with ports := { live.ports with
      lp0 := { live.ports.lp0 with mailState := .busy, mem := List.replicate 256 7 } } }
    live.readTransfer 0 0x38 128 2 = some [0, 0] ∧ live.readTransfer 0 0x39 128 2 = none ∧
    live.readTransfer 3 0x3B 128 2 = none ∧ s.readTransfer 0 0x38 127 2 = none ∧
    s.readTransfer 0 0x38 255 2 = some [7, 0] := by decide +kernel

/-! ## Witnesses: for each statement with hypotheses, states and operands that meet them

Each conjunct is the hypotheses of one clause at a concrete value. Hypotheses that only name a value
(`x = ...`) are met by that value. -/

/-- A request handed to its owner with these parameters. -/
abbrev Given (c : Instr) (s : State) (ps : List Byte) : Prop := Handed c s (reqOf c) ps

/-- A state with these events in flight between blocks. -/
def sending (s : State) (ds : List Delivery) : State := { s with deliveries := ds }

/-- A state with a command at the front of its queue. -/
def queued (s : State) (c : Instr) : State := { s with pending := [c] }

/-- The journal of READ_JOURNAL's witnesses: entry 0 is five bytes of 7 at 32, entry 1 names a
range past the array, as an entry that read back wrong may. -/
def readable : State :=
  { live with journal := { live.journal with
      count := 2, appendPoint := 48
      array := ((Memory.writeBytes [] 32 [7, 7, 7, 7, 7]).writeBytes (entryOffset 0)
        (entryBytes .certificate 32 [7, 7, 7, 7, 7])).writeBytes (entryOffset 1)
        [0xA5, 1, 0, 0xFF, 0x3F, 0x11, 0, 1] } }

theorem witness_StepRunsFrontCommand :
    (queued live .strokeEdge).pending = .strokeEdge :: [] ∧ live.pending = [] := by decide +kernel

theorem witness_CommandsKeepQueueAndGoOn :
    (∃ t, exec (.readJournal 0 (formOf (enc16 1 ++ enc16 0 ++ enc8 1))) readable = .next t) ∧
    { live with powered := false }.powered = false := ⟨⟨_, rfl⟩, rfl⟩

/-- A port's own checks: the request not refused for being BUSY, DISABLED or empty. -/
abbrev Submitted (c : Instr) (s : State) : Prop :=
  asRequest c = some (reqOf c) ∧ s.powered = true ∧ s.noneDue = true ∧ (s.ports.get (reqOf c).port).role ≠ .disabled ∧
    (s.ports.get (reqOf c).port).mailState ≠ .busy ∧ (reqOf c).form ≠ []

/-- Not ready; a parameter length of 127; a role that may not; a request held off. -/
theorem witness_PortChecksAndRefusals :
    (Submitted (.partStatus 0 [0]) State.reset ∧ State.reset.ready = false) ∧
    (Submitted (.partStatus 0 [127]) live ∧ live.ready = true ∧
      126 < ((live.taken 0 0x58 [127]).ports.get 0).formLength) ∧
    (Submitted (.declare 1 [126]) live ∧ ((live.taken 1 0x01 [126]).ports.get 1).formLength ≤ 126 ∧
      (reqOf (.declare 1 [126])).access.allows (live.ports.get 1).role = false) ∧
    (let s := { live with journal := { live.journal with
        state := .appending, inFlight := some ⟨.settings, [], .commit 0⟩ } }
     Submitted (.declare 0 [126]) s ∧ ((s.taken 0 0x01 [126]).ports.get 0).formLength ≤ 126 ∧
       (reqOf (.declare 0 [126])).access.allows (s.ports.get 0).role = true ∧
       (reqOf (.declare 0 [126])).held = true ∧ s.journal.settingsInFlight = true) := by
  decide +kernel

/-- Requests whose parameter length misses their form by one, with that length. -/
def wrongForms : List (Instr × Nat) :=
  [(.declare 0 (formOf (List.replicate 19 1)), 19), (.seek 0 (formOf [1, 1]), 2),
    (.withdraw 0 (formOf [1, 1]), 2), (.abandon 0 (formOf [1, 1, 1, 1]), 4),
    (.inspect 0 (formOf [1, 1]), 2), (.startWinch 0 (formOf [1, 1]), 2),
    (.startTest 0 (formOf [1, 1]), 2), (.startGrout 0 (formOf [1, 1, 1]), 3),
    (.setTime 2 (formOf [1, 1, 1]), 3), (.postBatch 1 (formOf (List.replicate 10 1)), 10),
    (.discardBatch 1 (formOf [1]), 1), (.shiftTime 2 (formOf [1]), 1), (.readPanels 1 (formOf [1]), 1),
    (.clearEvents 1 (formOf [1]), 1), (.setMask 1 (formOf [1]), 1),
    (.postWall 2 (formOf (1 :: List.replicate 6 1)), 7), (.readJournal 1 (formOf [1, 0, 0, 0]), 4),
    (.stageSetting 0 (formOf []), 0), (.stageProfile 0 (formOf [1, 1, 1]), 3),
    (.partStatus 1 (formOf []), 0), (.nextRecord 1 (formOf [1]), 1), (.clearTrip 0 (formOf [1]), 1)]

/-- Forms of a wrong length; the invalid positions next to the bounds; a valid one without a record. -/
theorem witness_PortChecksAndRefusals_forms :
    (∀ x ∈ wrongForms, live.handsOn (reqOf x.1) ∧ (live.given (reqOf x.1)).length = x.2) ∧
    (∀ ps ∈ [[0, 1, 1], [33, 8, 4], [32, 9, 4], [32, 8, 5]],
      Given (.withdraw 0 (formOf ps)) live ps ∧ (positionAt ps 0).valid = false) ∧
    (Given (.withdraw 0 (formOf [32, 8, 4])) live [32, 8, 4] ∧
      (positionAt [32, 8, 4] 0).valid = true ∧ live.register.find ⟨32, 8, 4⟩ = none) := by
  decide +kernel

theorem witness_PortChecksAndRefusals_refused :
    let t := after (exec (.inspect 0 (formOf [4, 2, 1])) live)
    live.noneDue = true ∧ (live.ports.get 0).mem.length = 256 ∧
      (t.ports.get 0).readByte 129 ≠ 0x00 ∧ (t.ports.get 0).readByte 129 ≠ 0x01 := by decide +kernel

theorem witness_WriteTransfers :
    (live.powered = true ∧ live.noneDue = true ∧ (live.ports.get 0).role ≠ .disabled ∧
      (live.ports.get 0).mailState ≠ .busy ∧ (live.ports.get 0).mem.length = 256) ∧
    (live.readTransfer 0 0x38 128 2 = some [0, 0] ∧ live.readTransfer 3 0x3B 128 1 = none ∧
      live.readTransfer 0 0x39 128 1 = none) ∧
    (live.ports.get 3).role = .disabled ∧
    (let s := { live with ports := { live.ports with lp0 := { live.ports.lp0 with mailState := .busy } } }
     (s.ports.get 0).mailState = .busy) ∧
    asRequest (.nextRecord 0 [0]) = some (reqOf (.nextRecord 0 [0])) ∧
    (catalogue.contains 0x00 = false ∧ catalogue.contains 0xFF = false) := by decide +kernel

theorem witness_MailboxHoldsRequestAndReply :
    (live.ports.get 0).mem.length = 256 ∧ (List.replicate 125 (7 : Byte)).length ≤ 125 ∧
      (List.replicate 126 (7 : Byte)).length ≤ 126 := by decide +kernel

theorem witness_EventRequests :
    Given (.readEvents 0 (formOf [])) pendingEvents [] ∧
    Given (.clearEvents 0 (formOf [0xFF, 0xFF])) pendingEvents [0xFF, 0xFF] ∧
    Given (.setMask 0 (formOf [0, 0])) pendingEvents [0, 0] ∧
    (live.ports.get 0).role ≠ .disabled := by decide +kernel

theorem witness_RepliesHaveTheirLayouts :
    (Given (.partStatus 1 (formOf [6])) live [6] ∧
      (statusSection (live.taken 1 0x58 (formOf [6])) 6).isSome = true) ∧
    (Given (.partStatus 1 (formOf [7])) live [7] ∧ live.panels.length = 32) ∧
    (∀ k ∈ List.range 7, (statusSection live k).isSome = true) ∧ (live.panels[31]?).isSome = true := by
  decide +kernel

/-- R192: of 16 panels in use, panel 16 stands at offset 37 of section 0, and the last of the 32 panel
bytes is followed by the trip latch and the trip line. -/
theorem test_panel_bytes :
    let s := { live with
      panels := live.panels.set 15 ⟨.action, none, 0, 0⟩
      supply := { live.supply with latched := true, lineAsserted := false } }
    ((sectionGeneral s).drop 37).take 2 = [3, 0] ∧ (sectionGeneral s).drop 53 = [0, 2, 2, 1, 1, 1] := by
  decide +kernel

/-- The parameters of a DECLARE of P16-T8-S4, the last position of the panels in use. -/
def lastDeclare : List Byte := enc8 16 ++ enc8 8 ++ enc8 4 ++ designBytes

theorem witness_RecordsArePlacedAndEnded :
    Given (.declare 0 (formOf lastDeclare)) live lastDeclare ∧ lastDeclare.length = 20 ∧
    byteAt lastDeclare 0 ≤ live.settings.panelCount ∧ byteAt lastDeclare 1 ≤ 8 ∧
    byteAt lastDeclare 2 ≤ 4 ∧ (100 ≤ u16At lastDeclare 3 ∧ u16At lastDeclare 3 ≤ 30000) ∧
    (100 ≤ u16At lastDeclare 5 ∧ u16At lastDeclare 5 ≤ 6000) ∧
    (1500 ≤ u16At lastDeclare 7 ∧ u16At lastDeclare 7 ≤ 2200) ∧
    (3000 ≤ u16At lastDeclare 9 ∧ u16At lastDeclare 9 ≤ 40000) ∧
    (2000 ≤ u16At lastDeclare 11 ∧ u16At lastDeclare 11 ≤ 15000) ∧
    u16At lastDeclare 9 + u16At lastDeclare 11 ≤ u16At lastDeclare 13 ∧
    (100 ≤ u16At lastDeclare 15 ∧ u16At lastDeclare 15 ≤ 20000) ∧
    (1 ≤ byteAt lastDeclare 17 ∧ byteAt lastDeclare 17 ≤ 4) ∧
    (500 ≤ u16At lastDeclare 18 ∧ u16At lastDeclare 18 ≤ 1100) ∧
    live.register.find (positionAt lastDeclare 0) = none ∧ live.register.records.length < 512 := by
  decide +kernel

theorem witness_RecordsArePlacedAndEnded_ends :
    let s := holding live [inState .declared]
    let u := holding live [{ inState .failed with grout := some { grouted 0 with postCount := 2 } }]
    (Given (.withdraw 0 (formOf [4, 2, 1])) s [4, 2, 1] ∧
      s.register.find p421 = some (inState .declared)) ∧
    (Given (.withdraw 0 (formOf [4, 2, 1])) u [4, 2, 1] ∧
      (u.register.find p421).map Anchor.state = some .failed) ∧
    (Given (.abandon 0 (formOf [4, 2, 1])) u [4, 2, 1] ∧
      (u.register.find p421).map (fun a => a.groutPart.postCount) = some 2) := by decide +kernel

theorem witness_RegisterWalk :
    let s := holding live [inState .placed]
    Given (.seek 1 (formOf [])) s [] ∧
    (Given (.seek 1 (formOf [32, 8, 4])) s [32, 8, 4] ∧ (positionAt [32, 8, 4] 0).valid = true) ∧
    (Given (.inspect 1 (formOf [1, 1, 1])) s [1, 1, 1] ∧ (positionAt [1, 1, 1] 0).valid = true) := by
  decide +kernel

theorem witness_RegisterWalk_next :
    let s := holding live [inState .placed]
    (Given (.nextRecord 1 (formOf [])) s [] ∧ s.register.records = [] ++ inState .placed :: [] ∧
      beyond (s.ports.get 1).cursor p421 = true) ∧
    Given (.nextRecord 1 (formOf [])) live [] ∧ live.register.records = [] := by decide +kernel

theorem witness_CureRule :
    (inState .grouted).grout.bind GroutPart.endTime = none ∧
    ({ inState .grouted with grout := some (grouted 5040000) }.grout = some (grouted 5040000) ∧
      (grouted 5040000).endTime = some 5040000 ∧
      Anchor.hoursToCure 168 5581200
        { inState .grouted with grout := some (grouted 5040000) } = some 18) := by decide +kernel

theorem witness_ClockCommands :
    (Given (.setTime 2 (formOf [0xFF, 0xFF, 0xFF, 0xFF])) live [0xFF, 0xFF, 0xFF, 0xFF] ∧
      live.winch.state = .idle ∧ live.grout.state = .idle ∧ live.stress.state = .idle ∧
      live.journal.state ≠ .appending) ∧
    (Given (.setTime 2 (formOf [0, 0, 0, 0])) { live with clock := ⟨false, 0, false, true, false⟩ }
      [0, 0, 0, 0]) ∧
    (Given (.shiftTime 2 (formOf (encS16 (-999)))) live (encS16 (-999)) ∧
      (s16At (encS16 (-999)) 0).natAbs ≤ 999 ∧ (s16At (encS16 999) 0).natAbs ≤ 999) ∧
    (live.noneDue = true ∧ live.clock.running = true ∧ live.clock.supplied = true ∧
      live.clock.stopped = false ∧
      State.reset.noneDue = true ∧ State.reset.clock.running = false) ∧
    (let s := { live with clock := ⟨true, Config.maxTime, true, true, true⟩ }
     s.noneDue = true ∧ s.clock.stopped = true) := by
  decide +kernel

theorem witness_ClockCommands_loss :
    ∃ t, exec .clockDomainSupplyLoss live = .next t := ⟨_, rfl⟩

theorem witness_MarkInsertion :
    marksSound [⟨5, .jam⟩, ⟨5, .coldJoint⟩, ⟨7, .staleness 3⟩] = true := by decide +kernel

/-- A mark that is due, and one that is not. -/
theorem witness_DueMarksExpireFirst :
    live.noneDue = true ∧
    (let s := { live with marks := [⟨2000000 * 1024, .jam⟩] }
     s.powered = true ∧ s.marks = ⟨2000000 * 1024, .jam⟩ :: [] ∧ 2000000 * 1024 ≤ s.clock.time) ∧
    live.marks = [] ∧
    (let s := { live with marks := [⟨2000000 * 1024 + 1, .jam⟩] }
     s.marks = ⟨2000000 * 1024 + 1, .jam⟩ :: [] ∧ s.clock.time < 2000000 * 1024 + 1) := by
  decide +kernel

theorem witness_StartsTakeAnchors :
    let s := holding live [inState .declared]
    let u := holding live [inState .placed]
    let w := holding live [{ inState .failed with grout := some { grouted 0 with postCount := 1 } }]
    (Given (.startWinch 0 (formOf [4, 2, 1])) s [4, 2, 1] ∧
      s.register.find p421 = some (inState .declared) ∧ s.winch.state = .idle ∧
      s.supply.latched = false ∧ s.clock.running = true) ∧
    (Given (.startGrout 0 (formOf [4, 2, 1, 1])) u [4, 2, 1, 1] ∧
      u.register.find p421 = some (inState .placed) ∧ u.grout.state = .idle ∧
      ∀ b ∈ u.register.records, b.pos.panel = 4 → b.state ≠ .testing) ∧
    (Given (.startGrout 0 (formOf [4, 2, 1, 2])) w [4, 2, 1, 2] ∧
      (w.register.find p421).map (fun a => (a.state, a.groutPart.postCount)) = some (.failed, 1) ∧
      ∀ b ∈ w.register.records, b.pos.panel = 4 → b.state ≠ .testing) := by decide +kernel

theorem witness_ContinueAndAbort :
    let s := { live with winch := { live.winch with state := .stopped, anchor := some p421 } }
    Given (.continueWinch 0 (formOf [])) s [] ∧
    (Given (.abortWinch 0 (formOf [])) s [] ∧ s.winch.state ≠ .idle ∧ s.winch.anchor = some p421) := by
  decide +kernel

theorem witness_ContinueAndAbort_idle :
    (Given (.abortWinch 0 (formOf [])) live [] ∧ live.winch.state = .idle) ∧
    Given (.continueGrout 0 (formOf [])) live [] ∧ Given (.abortGrout 0 (formOf [])) live [] := by
  decide +kernel

/-- The winch in RUN on P04-T2-S1, with so many counts paid out at 2000 a metre. -/
def winching (st : WinchState) (counts : BitVec 32) : State :=
  { holding live [inState .placing] with
    winch := { live.winch with state := st, anchor := some p421, slowBoundary := some 19500 }
    meas := { live.meas with drum := ⟨counts, ⟨false, false⟩, 0⟩ } }

/-- Paid length 21,499 and 21,500 of a tendon of 21500. -/
theorem witness_TensionSamples :
    (live.powered = true ∧ live.noneDue = true ∧ live.winch.state = .idle) ∧ (winching .waitFlow 0).winch.state = .waitFlow ∧
    ((winching .slow 43000).noneDue = true ∧ (winching .slow 43000).winch.anchor = some p421 ∧
      (winching .slow 43000).register.find p421 = some (inState .placing) ∧
      (design.tendonLength : Int) ≤ (winching .slow 43000).paidLength) ∧
    ((winching .run 42998).winch.state = .run ∧
      (winching .run 42998).paidLength < (design.tendonLength : Int)) := by decide +kernel

theorem witness_WinchStops :
    let s := { winching .run 0 with marks := [⟨2000000 * 1024, .jam⟩] }
    (s.powered = true ∧ s.marks = ⟨2000000 * 1024, .jam⟩ :: [] ∧ 2000000 * 1024 ≤ s.clock.time ∧
      s.winch.state = .run) ∧
    (let u := sending (winching .waitFlow 0) [.grant .grout, .tripNotice .winch]
     u.powered = true ∧ u.noneDue = true ∧
       u.deliveries = [Delivery.grant .grout] ++ .tripNotice .winch :: [] ∧
       ∀ d ∈ [Delivery.grant .grout], d.toEngine .winch = false) ∧
    ((winching .run 0).noneDue = true ∧
      phaseMove (winching .run 0).meas.drum.pair ⟨true, true⟩ = .fault) := by decide +kernel

/-- The grout engine in a state on P04-T2-S1, two strokes counted. -/
def grouting (st : GroutState) (m : GroutMode) : State :=
  { holding live [{ inState .grouting with work := some ⟨.groutPrimary, none, 0⟩ }] with
    batches := [⟨901, 1999000, 400, 790, 60, 2002600, 740⟩]
    grout := { live.grout with
      state := st, anchor := some p421, mode := some m, limit := some 1980
      injected := 50, strokes := 2, batchIds := [901] } }

theorem witness_GroutEnds :
    (grouting .pumping .post).grout.anchor = some p421 ∧
      (grouting .pumping .post).grout.mode = some .post := by decide +kernel

theorem witness_GroutPausesAndExpiries :
    let s := { grouting .paused .primary with marks := [⟨2000000 * 1024, .coldJoint⟩] }
    let u := { grouting .refusalHold .primary with marks := [⟨2000000 * 1024, .refusal⟩] }
    (let w := sending (grouting .pumping .primary) [.tripNotice .winch, .tripNotice .grout]
     w.powered = true ∧ w.noneDue = true ∧
       w.deliveries = [Delivery.tripNotice .winch] ++ .tripNotice .grout :: [] ∧
       ∀ d ∈ [Delivery.tripNotice .winch], d.toEngine .grout = false) ∧
    (s.powered = true ∧ s.marks = ⟨2000000 * 1024, .coldJoint⟩ :: [] ∧
      2000000 * 1024 ≤ s.clock.time) ∧
    (u.powered = true ∧ u.marks = ⟨2000000 * 1024, .refusal⟩ :: [] ∧
      2000000 * 1024 ≤ u.clock.time) := by decide +kernel

theorem witness_GroutSamples :
    (live.powered = true ∧ live.noneDue = true ∧ live.grout.state = .idle) ∧
    ((grouting .waitBatch .primary).noneDue = true ∧
      (grouting .waitBatch .primary).grout.state = .waitBatch) ∧
    (grouting .pumping .primary).grout.state = .pumping ∧
    (grouting .refusalHold .primary).grout.state = .refusalHold := by decide +kernel

theorem witness_StrokeEdgesAndTimer :
    (live.powered = true ∧ live.noneDue = true ∧ live.meas.strokeTimer = none) ∧
    (let s := { live with meas := { live.meas with strokeTimer := some 250 } }
     s.meas.strokeTimer = some 250 ∧ s.settings.minStroke ≤ 250) ∧
    249 < live.settings.minStroke := by decide +kernel

theorem witness_StrokesAreCounted :
    (chargeQueue 25 [⟨901, 0, 400, 790, 60, 3600, 15⟩]).left = 10 ∧
    (let s := sending (grouting .pumping .primary) [.panelChange 1 .stale .clear, .stroke 5 none]
     s.powered = true ∧ s.noneDue = true ∧
       s.deliveries = [Delivery.panelChange 1 .stale .clear] ++ .stroke 5 none :: [] ∧
       s.grout.state ≠ .idle) ∧ live.grout.state = .idle := by
  decide +kernel

theorem witness_StrokesAreCounted_before :
    ∀ d ∈ [Delivery.panelChange 1 .stale .clear], ∀ t i, d ≠ Delivery.stroke t i := by
  intro d hd t i h
  simp at hd
  subst hd
  cases h

theorem witness_BatchesComeAndGo :
    let ps := enc16 65535 ++ enc32 2000060 ++ enc16 550 ++ enc16 20000 ++ enc8 240
    let b : Batch := ⟨65535, 2000060, 550, 20000, 240, 2000060 + 60 * 240, 20000⟩
    (Given (.postBatch 1 (formOf ps)) live ps ∧ ps.length = 11 ∧
      b = ⟨u16At ps 0, u32At ps 2, u16At ps 6, u16At ps 8, byteAt ps 10,
        u32At ps 2 + 60 * byteAt ps 10, u16At ps 8⟩ ∧
      live.clock.running = true ∧ live.batches.length < 4 ∧ (∀ x ∈ live.batches, x.id ≠ b.id) ∧
      b.mixTime ≤ live.clock.time / 1024 + 60 ∧ live.clock.time / 1024 < b.expiry ∧
      live.batches.getLast? = none) ∧
    Given (.discardBatch 1 (formOf (enc16 901))) (grouting .pumping .primary) (enc16 901) ∧
    (let s := { grouting .pumping .primary with marks := [⟨2000000 * 1024, .expiry 901⟩] }
     s.powered = true ∧ s.marks = ⟨2000000 * 1024, .expiry 901⟩ :: [] ∧
       2000000 * 1024 ≤ s.clock.time) := by decide +kernel

theorem witness_ArbiterDecides :
    [Claim.mk .stress 15, ⟨.winch, 25⟩].Pairwise (fun x y => priority y.engine ≤ priority x.engine) ∧
    (let s := sending live [.claim .winch 25, .claim .grout 30]
     s.powered = true ∧ s.noneDue = true ∧
       s.deliveries = [Delivery.claim .winch 25] ++ .claim .grout 30 :: [] ∧
       ∀ d ∈ [Delivery.claim .winch 25], d.fromEngine .grout = false) := by decide +kernel

theorem witness_ArbiterDecides_releases :
    let s := sending { live with supply :=
      ⟨⟨.none, 0⟩, ⟨.granted, 30⟩, ⟨.queued, 0⟩, [⟨.stress, 15⟩], false, false⟩ }
      [.release .winch, .release .grout, .release .stress]
    (s.powered = true ∧ s.noneDue = true ∧
      s.deliveries = [] ++ .release .winch :: [.release .grout, .release .stress] ∧
      (s.supply.flowOf .winch).status = .none) ∧
    (s.deliveries = [Delivery.release .winch] ++ .release .grout :: [.release .stress] ∧
      (∀ d ∈ [Delivery.release .winch], d.fromEngine .grout = false) ∧
      (s.supply.flowOf .grout).status = .granted) ∧
    (s.deliveries = [Delivery.release .winch, .release .grout] ++ .release .stress :: [] ∧
      (∀ d ∈ [Delivery.release .winch, .release .grout], d.fromEngine .stress = false) ∧
      (s.supply.flowOf .stress).status = .queued) := by decide +kernel

/-- The oldest grant, behind another engine's notice; and the grant of another engine. -/
theorem witness_GrantsReachEngines :
    let before : List Delivery := [.tripNotice .winch, .claim .stress 15]
    let s := sending live (before ++ .grant .stress :: [.grant .winch])
    s.powered = true ∧ s.noneDue = true ∧
      (∀ d ∈ before, d.isGrant = false ∧ d.toEngine .stress = false) ∧
      s.deliveries = before ++ .grant .stress :: [.grant .winch] ∧
      (∀ d ∈ before, d.isGrant = false ∧ d.toEngine .grout = false) ∧ Engine.stress ≠ .grout := by
  decide +kernel

theorem witness_TripLineAndLatch :
    (live.powered = true ∧ live.noneDue = true ∧ live.supply.latched = false) ∧
    (Supply.atStartUp true).latched = true ∧ Given (.clearTrip 0 (formOf [])) live [] := by
  decide +kernel

theorem witness_NoticesReachEngines :
    (let s := sending live [.clearNotice .winch, .clearNotice .stress]
     s.powered = true ∧ s.noneDue = true ∧
       s.deliveries = [Delivery.clearNotice .winch] ++ .clearNotice .stress :: [] ∧
       ∀ d ∈ [Delivery.clearNotice .winch], d.toEngine .stress = false) ∧
    (let s := sending live [.tripNotice .winch, .tripNotice .stress]
     s.powered = true ∧ s.noneDue = true ∧
       s.deliveries = [Delivery.tripNotice .winch] ++ .tripNotice .stress :: [] ∧
       ∀ d ∈ [Delivery.tripNotice .winch], d.toEngine .stress = false) := by decide +kernel

theorem witness_DutyWritesAndPeriods :
    (Supply.atStartUp true).latched = true ∧ valveOwner .pump ≠ .winch ∧ live.supply.latched = false ∧
    (let os : Outputs := ⟨⟨0, 0, 200⟩, ⟨0, 0, 200⟩, ⟨0, 0, 200⟩, ⟨600, 600, 200⟩⟩
     0 < os.jackRelease.set ∧ (Outputs.get os .jackRelease).set = 600) ∧
    live.powered = true ∧ live.noneDue = true := by
  decide +kernel

theorem witness_CountStepsMoveCounters :
    (live.powered = true ∧ live.noneDue = true ∧ nextPair ⟨false, true⟩ = live.meas.drum.pair ∧
      nextPair ⟨false, true⟩ = live.meas.ram.pair ∧ live.meas.compare = none) ∧
    (let s := { live with meas := { live.meas with
        ram := ⟨54609, ⟨false, false⟩, 0⟩, ramDatum := some 40611, compare := some 7000
        jack := some ⟨2569, 4390, 6452, false, 0⟩ } }
     let u := { s with meas := { s.meas with ram := ⟨54610, ⟨true, false⟩, 0⟩ } }
     s.meas.compare = some 7000 ∧ (7000 : Int) ≤ u.displacement ∧ s.displacement < 7000 ∧
       s.meas.jack = some ⟨2569, 4390, 6452, false, 0⟩) ∧
    live.meas.jack = none ∧ phaseMove live.meas.drum.pair ⟨true, true⟩ = .fault ∧
    phaseMove live.meas.ram.pair ⟨true, true⟩ = .fault := by decide +kernel

theorem witness_StartTestTakesAnchor :
    let a := { inState .grouted with grout := some (grouted 5040000) }
    (Given (.startTest 0 (formOf [4, 2, 1])) permitted [4, 2, 1] ∧ permitted.register.find p421 = some a ∧
      a.testPart.count < 4 ∧ permitted.stress.state = .idle ∧ permitted.journal.state ≠ .appending ∧
      permitted.journal.state ≠ .fault ∧ 727 ≤ permitted.journal.room ∧
      permitted.clock.running = true ∧ a.grout.bind GroutPart.endTime = some 5040000 ∧
      5040000 + 3600 * permitted.settings.curePeriod ≤ permitted.clock.time / 1024 ∧
      permitted.settings.profile 1 = some profile ∧
      peakPressure permitted.settings design profile ≤ permitted.settings.jackMax ∧
      (∀ b ∈ permitted.register.records, b.pos.panel = 4 → b.state ≠ .grouting) ∧
      permitted.supply.latched = false) ∧
    (∀ q ∈ [3, 4, 5], (panelAt permitted.panels q).state = .clear) ∧
    (∀ q ∈ [3, 5], ((panelAt permitted.panels 4).lockedSum + roundDivNat (6000 * 1100) 1000 -
      (panelAt permitted.panels q).lockedSum : Int).natAbs ≤ permitted.settings.imbalanceLimit) := by
  decide +kernel

/-- The two clauses over the panels next to 4 hold of every number. -/
theorem witness_StartTestTakesAnchor_panels (q : Nat)
    (h : q + 1 = 4 ∨ q = 4 ∨ q = 4 + 1) : q ∈ [3, 4, 5] := by
  simp
  omega

/-- Each check of START_TEST fails on a state that passes those before it. -/
theorem witness_StartTestRefusesInOrder :
    Given (.startTest 0 (formOf [4, 2])) permitted [4, 2] ∧
    (Given (.startTest 0 (formOf [0, 2, 1])) permitted [0, 2, 1] ∧
      (positionAt [0, 2, 1] 0).valid = false) ∧
    (Given (.startTest 0 (formOf [1, 1, 1])) permitted [1, 1, 1] ∧
      permitted.register.find ⟨1, 1, 1⟩ = none) ∧
    (inState .failed).state = .failed ∧
    ({ live.journal with appendPoint := 262144 - 726 }.room < 727 ∧
      { live.journal with appendPoint := 262144 - 726 }.state = .ready) ∧
    Anchor.hoursToCure 168 5650000 (inState .grouted) = some 168 ∧
    live.settings.profile 1 = none ∧
    6000 < peakPressure permitted.settings { design with workLoad := 30000 } profile ∧
    permitted.panelHeld 4 = none ∧ live.panelHeld 4 = some 3 ∧
    State.imbalanced 4 6600 permitted = none ∧
    State.imbalanced 4 6600 { permitted with
      settings := { permitted.settings with imbalanceLimit := 10000 } } = some 5 := by decide +kernel

theorem witness_TestEndsAndAborts :
    TestCode.isAbort .abortedWall = true ∧
      (testing .unloading 4 1513).stress.anchor = some p421 ∧
      Given (.abortTest 0 (formOf [])) (testing .stepHold 4 1200) [] := by decide +kernel

theorem witness_EvaluatedEnds :
    TestCode.isAbort .accepted = false ∧
    (testing .finalRelease 5 2011).stress.anchor = some p421 ∧
    ((testing .finalRelease 5 2011).register.find p421).map Anchor.state = some .testing ∧
    (testing .finalRelease 5 2011).journal.state = .ready := by decide +kernel

/-- Saturated (code 4095), above 6500 (code 3803, 6501 = round(3803 x 7000 / 4095)), beyond the stroke. -/
theorem witness_JackSamplesAndLimits :
    live.powered = true ∧ live.noneDue = true ∧ live.stress.state = .idle ∧
    (live.jackSampleOf 4095).saturated = true ∧
    ((live.jackSampleOf 3803).saturated = false ∧
      live.settings.jackMax < (live.jackSampleOf 3803).value) ∧
    ((live.jackSampleOf 3802).saturated = false ∧
      (live.jackSampleOf 3802).value ≤ live.settings.jackMax) ∧
    (let s := { live with meas := { live.meas with ram := ⟨50002, ⟨false, false⟩, 0⟩ } }
     s.settings.ramStroke * 100 < (s.jackView (s.jackSampleOf 0)).travel.natAbs) ∧
    ((live.jackSampleOf 20).load ≤ live.settings.approachBand ∧
      live.settings.approachBand < (live.jackSampleOf 21).load) := by decide +kernel

theorem witness_RampsAndMakeUps :
    let s := testing .stepRamp 4 900
    (s.powered = true ∧ s.noneDue = true ∧ (s.jackSampleOf 2986).saturated = false ∧
      (s.jackSampleOf 2986).value ≤ s.settings.jackMax ∧
      (s.jackView (s.jackSampleOf 2986)).travel.natAbs ≤ s.settings.ramStroke * 100) ∧
    (s.stress.step = some (3 + 1) ∧ s.stress.steps[3]? = some ⟨1250, 600, true, 3600, .peak⟩ ∧
      s.stress.targets.getD 3 0 = 7500 ∧ 7500 ≤ (s.jackSampleOf 2986).load ∧
      (s.jackSampleOf 2976).load < 7500) ∧
    (testing .stepHold 4 900).stress.targets.getD 3 0 = 7500 ∧
    { s.stress with state := .suspended, suspension := some ⟨4820, .ramp⟩ }.suspension =
      some ⟨4820, .ramp⟩ := by decide +kernel

theorem witness_HoldMarksAndCreepFigures :
    valveOwner .jackRelease = .stress ∧
    (let e := { live.stress with
        log := [⟨4, .mark, 960, 7495, 7830⟩, ⟨4, .mark, 1260, 7490, 7901⟩,
          ⟨4, .stepEnd, 1500, 7498, 8050⟩, ⟨4, .stepEnd, 4500, 7498, 8090⟩] }
     e.readings 4 .mark = ⟨4, .mark, 960, 7495, 7830⟩ :: [⟨4, .mark, 1260, 7490, 7901⟩] ∧
     e.readings 4 .stepEnd =
       ⟨4, .stepEnd, 1500, 7498, 8050⟩ :: ⟨4, .stepEnd, 4500, 7498, 8090⟩ :: [] ∧
     (e.readings 4 .mark)[1]? = some ⟨4, .mark, 1260, 7490, 7901⟩) ∧
    ((testing .stepHold 4 1500).stress.step = some (3 + 1) ∧
      (testing .stepHold 4 1500).stress.steps[3]? = some ⟨1250, 600, true, 3600, .peak⟩) ∧
    (let s := { testing .stepHold 4 960 with marks := [⟨5650960 * 1024, .creep 4 .base⟩] }
     s.marks = ⟨5650960 * 1024, .creep 4 .base⟩ :: [] ∧ 5650960 * 1024 ≤ s.clock.time) ∧
    (let s := { testing .suspended 3 2400 with marks := [⟨5652400 * 1024, .suspension 3⟩] }
     s.marks = ⟨5652400 * 1024, .suspension 3⟩ :: [] ∧ 5652400 * 1024 ≤ s.clock.time) := by
  decide +kernel

theorem witness_HoldEndsAreJudged :
    let s := { testing .stepHold 4 1500 with marks := [⟨5651500 * 1024, .holdEnd (3 + 1)⟩] }
    let log : List Reading := [⟨4, .mark, 960, 7495, 7830⟩, ⟨4, .stepEnd, 1500, 7498, 8050⟩]
    (s.powered = true ∧ s.marks = ⟨5651500 * 1024, .holdEnd (3 + 1)⟩ :: [] ∧
      5651500 * 1024 ≤ s.clock.time ∧ s.stress.step = some (3 + 1) ∧
      s.stress.steps[3]? = some ⟨1250, 600, true, 3600, .peak⟩) ∧
    ((testing .unloading 4 1500).stress.state ≠ .stepHold) ∧
    (s.stress.extended = false ∧
      s.settings.creepLimit < Stress.alpha { s.stress with log := log } 4 ∧
      Stress.alpha { s.stress with log := [⟨4, .mark, 960, 7495, 7850⟩,
        ⟨4, .stepEnd, 1500, 7498, 8050⟩] } 4 ≤ s.settings.creepLimit) ∧
    s.stress.steps[0]? = some ⟨100, 60, false, 0, .datum⟩ := by decide +kernel

theorem witness_PanelChangesReachTest :
    let s := sending (testing .stepRamp 3 560) [.stroke 0 none, .panelChange 5 .clear .action]
    let held := { s with panels := s.panels.set 4 ⟨.action, some (410, 5650500), 0, 1⟩ }
    live.stress.anchor = none ∧
    (s.powered = true ∧ s.noneDue = true ∧ s.stress.anchor = some p421 ∧
      s.deliveries = [Delivery.stroke 0 none] ++ .panelChange 5 .clear .action :: [] ∧
      ∀ d ∈ [Delivery.stroke 0 none], d.panelOf = none) ∧
    (s.wallQuiet 4 = true ∧ held.wallQuiet 4 = false) ∧
    ((testing .suspended 3 560).stress.step = some 3 ∧
      (testing .suspended 3 560).wallQuiet 4 = true) := by decide +kernel

theorem witness_FreeLengthIsJudged :
    let s := testing .stepHold 5 1680
    let e := { s.stress with log := stepEnds }
    e.design = some design ∧
    (e.readings (e.roleIndex .datum) .stepEnd).getLast? = some ⟨1, .stepEnd, 100, 601, 0⟩ ∧
    (e.readings (e.roleIndex .peak) .stepEnd).getLast? = some ⟨4, .stepEnd, 1500, 7498, 7946⟩ ∧
    (e.readings (e.roleIndex .ret) .stepEnd).getLast? = some ⟨5, .stepEnd, 1680, 603, 1003⟩ ∧
    ((11778 : Nat) : Int) = min 65535 (roundDiv (600 * 1950 * 6943) (100 * 6897)) := by decide +kernel

theorem witness_LockOffSamples :
    let s := testing .lockRamp 5 1902
    (s.powered = true ∧ s.noneDue = true ∧ (s.jackSampleOf 2628).saturated = false ∧
      (s.jackSampleOf 2628).value ≤ s.settings.jackMax ∧
      (s.jackView (s.jackSampleOf 2628)).travel.natAbs ≤ s.settings.ramStroke * 100) ∧
    ({ s.stress.lock with hold := .trip }.hold ≠ .none ∧ s.stress.lock.hold = .none) ∧
    (6600 ≤ (s.jackSampleOf 2628).load ∧ (s.jackSampleOf 2620).load < 6600) ∧
    { s.stress.lock with target := some 6600 }.target = some 6600 := by decide +kernel

theorem witness_LiftsAreDecided :
    let s := { testing .seating 5 1936 with marks := [⟨5651936 * 1024, .seat 5⟩] }
    let x : Sample := ⟨2569, 4390, 6452, false, 0⟩
    (s.powered = true ∧ s.marks = ⟨5651936 * 1024, .seat 5⟩ :: [] ∧
      5651936 * 1024 ≤ s.clock.time ∧ s.stress.state = .seating) ∧
    ((testing .liftCheck 5 1979).noneDue = true ∧
      (sending (testing .liftCheck 5 1979) [.stroke 0 none, .capture x]).deliveries =
        [Delivery.stroke 0 none] ++ .capture x :: [] ∧
      ∀ d ∈ [Delivery.stroke 0 none], d.captureOf = none) ∧
    s.stress.pLock = some 6600 := by decide +kernel

/-- The panels are numbered 1 to 32 and stand at 0 to 31. -/
theorem witness_WallReadings :
    let ps := enc8 1 ++ (enc8 32 ++ encS16 (-3001) ++ enc32 2000060)
    (live.panels[32 - 1]? = some .atStartUp ∧ live.panels[0]? = some .atStartUp) ∧
    (Given (.postWall 2 (formOf ps)) live ps ∧ ps.length = 1 + 7 * byteAt ps 0) ∧
    (let s := { live with marks := [⟨2000000 * 1024, .staleness 32⟩] }
     s.marks = ⟨2000000 * 1024, .staleness 32⟩ :: [] ∧ 2000000 * 1024 ≤ s.clock.time) ∧
    (Given (.readPanels 1 (formOf [16, 8])) live [16, 8] ∧ 16 ≤ live.settings.panelCount) ∧
    (Given (.readPanels 1 (formOf [17, 8])) live [17, 8] ∧ live.settings.panelCount < 17) := by
  decide +kernel

theorem witness_SettingsReachPanels :
    live.panels.length = 32 ∧ live.settings.panelCount ≤ 32 ∧
    (let x : Panel := ⟨.alert, some (300, 0), 0, 1⟩
     (live.panels.set 0 x)[0]? = some x ∧ x.reading = some (300, 0) ∧ x.state ≠ .stale ∧
       live.settings.alertLevel ≠ { live.settings with alertLevel := 350 }.alertLevel) ∧
    (live.settings.panelCount ≤ 31 ∧ 31 < { live.settings with panelCount := 32 }.panelCount) := by
  decide +kernel

theorem witness_AppendsComplete :
    let r := List.replicate 230 (1 : Byte)
    (appending.powered = true ∧ appending.noneDue = true ∧
      appending.journal.inFlight = some ⟨.certificate, r, .register⟩ ∧
      r.length + 8 ≤ appending.journal.room) ∧
    ({ appending.journal with appendPoint := 261848 - 237 }.room < r.length + 8) ∧
    (List.replicate 8 (3 : Byte) ≠ entryBytes .certificate 26432 r ∧
      List.replicate 230 (3 : Byte) ≠ r ∧
      align16 (26432 + r.length) + r.length + 8 ≤ entryOffset appending.journal.count) ∧
    (appending.register.slot = some ⟨r, p421, 1, .accepted, some 6452⟩ ∧
      appending.panels[4 - 1]? = some .atStartUp) ∧
    (let s := { live with staging := some ⟨0, live.settings⟩ }
     (∀ d ∈ s.deliveries, d.toArbiter = false) ∧ s.arrivals.staging = some ⟨0, live.settings⟩) := by
  decide +kernel

theorem witness_JournalIsRead :
    (Given (.readJournal 1 (formOf (enc16 2 ++ enc16 0 ++ enc8 1))) readable
      (enc16 2 ++ enc16 0 ++ enc8 1) ∧ readable.journal.count ≤ 2) ∧
    (Given (.readJournal 1 (formOf (enc16 0 ++ enc16 5 ++ enc8 120))) readable
      (enc16 0 ++ enc16 5 ++ enc8 120) ∧ (readable.journal.array.entry 0).length ≤ 5) ∧
    (Given (.readJournal 1 (formOf (enc16 0 ++ enc16 4 ++ enc8 1))) readable
      (enc16 0 ++ enc16 4 ++ enc8 1) ∧ 4 < (readable.journal.array.entry 0).length) ∧
    Given (.readJournal 1 (formOf (enc16 0 ++ enc16 0 ++ enc8 121))) readable
      (enc16 0 ++ enc16 0 ++ enc8 121) := by decide +kernel

theorem witness_JournalIsRead_pastArray :
    Given (.readJournal 1 (formOf (enc16 1 ++ enc16 0 ++ enc8 1))) readable
      (enc16 1 ++ enc16 0 ++ enc8 1) ∧ 0 < (readable.journal.array.entry 1).length := by
  decide +kernel

theorem witness_SettingsAreStaged :
    32 = stagedValue live.settings 14 43 ∧
    (let ps := (List.replicate 16 (43, 65535)).flatMap fun x => enc8 x.1 ++ enc16 x.2
     Given (.stageSetting 0 (formOf ps)) live ps ∧ live.staging = none ∧
       ∀ x ∈ List.replicate 16 (43, 65535), 1 ≤ x.1 ∧ x.1 ≤ 43 ∧ x.2 < 65536) ∧
    { live with staging := some ⟨3, live.settings⟩ }.staging = some ⟨3, live.settings⟩ := by
  decide +kernel

theorem witness_SettingsAreStaged_profiles :
    (let ps := [4, 5] ++ profile.flatMap encStep
     Given (.stageProfile 0 (formOf ps)) live ps ∧ ps.length = 2 + 7 * byteAt ps 1 ∧
       stepsAt ps 2 (byteAt ps 1) = profile.map some ∧ profileFault (profile.map some) = none) ∧
    Given (.stageProfile 0 (formOf [5, 0])) live [5, 0] ∧
    Given (.stageProfile 0 (formOf [4, 0])) live [4, 0] := by decide +kernel

theorem witness_SettingsAreStaged_drop :
    (profileFault (stepsAt [4, 0] 2 0)).isSome = true ∧
    Given (.dropStaging 0 (formOf [])) live [] ∧ (3 : PortNo) ≠ 0 := by decide +kernel

theorem witness_CommitsAreDecided :
    let s := { live with staging := some ⟨0, live.settings⟩ }
    Given (.commitSettings 0 (formOf [])) live [] ∧
    (Given (.commitSettings 0 (formOf [])) s [] ∧ s.winch.state = .idle ∧ s.grout.state = .idle ∧
      s.stress.state = .idle ∧ s.journal.state = .ready ∧
      settingsLength live.settings + 23 ≤ s.journal.room) ∧
    (let u := holding s [{ inState .declared with pos := ⟨17, 1, 1⟩ }]
     Given (.commitSettings 0 (formOf [])) u [] ∧
       u.register.records = [] ++ { inState .declared with pos := ⟨17, 1, 1⟩ } :: [] ∧
       live.settings.panelCount < 17) ∧
    { live.journal with appendPoint := 262144 - (settingsLength live.settings + 22) }.room <
      settingsLength live.settings + 23 := by decide +kernel

theorem witness_SettingsRecordsReadBack :
    (∀ v ∈ { live.settings with profile4 := some profile }.values, v < 65536) ∧
    profile.length ≤ 255 ∧
    ∀ st ∈ profile, st.target < 65536 ∧ st.hold < 65536 ∧ st.ext % 10 = 0 ∧ st.ext < 655360 := by
  decide +kernel

theorem witness_StartUpAndPowerLoss :
    { live with powered := false }.powered = false ∧ live.powered = true ∧ live.noneDue = true ∧
    live.journal.state ≠ .scanning ∧ live.journal.inFlight = none ∧ Role.console ≠ .disabled := by
  decide +kernel

theorem witness_StartUpWorkIsDone :
    let s := holding State.reset [inState .placing]
    (s.powered = true ∧ s.noneDue = true ∧ s.ready = false ∧ s.journal.state = .scanning ∧
      ∀ a ∈ s.register.records, a.state ≠ .recording ∧ a.returnState ≠ .recording) ∧
    { s with powered := false }.powered = false := by decide +kernel

/-- A part stopped in RECORDING: its array without the certificate, then with it as entry 0. -/
def recording (array : Memory) : State :=
  { State.reset with
    register := ⟨true, [{ inState .recording with test := some ⟨1, .accepted, none, none, none, none⟩ }],
      some ⟨certificateRecord live.stress (inState .testing) .accepted 1 5, p421, 1, .accepted,
        some 6452⟩⟩
    journal := { State.reset.journal with array := array, header := .right } }

theorem witness_StartUpWorkIsDone_recording :
    let s := recording []
    (s.powered = true ∧ s.noneDue = true ∧ s.ready = false ∧ s.journal.state = .scanning ∧
      (s.register.records.map Anchor.state) = [.recording] ∧
      (s.register.slot.map PendingCertificate.pos) = some p421) ∧
    ((s.journal.startScan {}).1.lastCert = none ∧ (s.journal.startScan {}).1.state = .ready) := by
  decide +kernel

theorem witness_StartUpScan :
    (State.reset.journal.header = .absent ∧ (List.replicate 32 (0 : Byte)).length = 32) ∧
    (Memory.entryCount [] = 0 ∧ Memory.slot [] 0 = List.replicate 8 0) ∧
    (let m : Memory := [(40, 7)]
     m.entryCount = 0 ∧ m.slot 0 = List.replicate 8 0 ∧ m.scanPoint 0 ≤ 40 ∧
       40 < entryOffset 0 ∧ (∀ c ∈ m, c.1 < entryOffset 0 → c.1 ≤ 40) ∧
       (40 / 16 + 1) * 16 ≤ entryOffset 0) ∧
    (let m : Memory := [(262136, 3)]
     m.entryCount = 0 ∧ m.slot 0 ≠ List.replicate 8 0) ∧
    0 < readable.journal.array.entryCount := by decide +kernel

/-- The last certificate and the settings found of an array with entries, and of one with none. -/
theorem witness_StartUpScan_found :
    (readable.journal.array.lastCertificate 2 = some 1 ∧
      Memory.lastCertificate [] 0 = none) ∧
    (State.reset.journal.startScan {}).1.state = .ready ∧
    (let j : Journal := { State.reset.journal with array := [(262136, 3)] }
     (j.startScan {}).1.state = .fault) := by decide +kernel

/-- Bytes that a header holds, whichever of the two the free value answers for them. -/
theorem witness_StartUpScan_header (bs : List Byte) :
    ∃ j : Journal, j.header = .other bs ∧
      (Config.headerHolds bs = false ∨ Config.headerHolds bs = true) :=
  ⟨{ State.reset.journal with header := .other bs }, rfl,
    (Config.headerHolds bs).eq_false_or_eq_true.symm⟩

/-- Thirty-two bytes other than those the journal writes, whatever those are. -/
theorem witness_StartUpScan_otherBytes :
    ∃ bs : List Byte, bs.length = 32 ∧ bs ≠ headerBytes := by
  by_cases h : List.replicate 32 0 = headerBytes
  · exact ⟨List.replicate 32 1, rfl, fun g => absurd (g.trans h.symm) (by decide)⟩
  · exact ⟨List.replicate 32 0, rfl, h⟩

theorem witness_SupplySafetyIsKept :
    let s := queued live .tripLineAssertion
    s.tripSafe = true ∧ s.outputs.sound = true ∧ s.pending = .tripLineAssertion :: [] ∧
      s.supply.granted ≤ s.settings.capacity := by decide +kernel

/-- A start-up scan before any grant; an append's completion with a release in flight. -/
theorem witness_SupplySafetyIsKept_settings :
    (let s := queued State.reset (.startUpScanDone {})
     s.pending = .startUpScanDone {} :: [] ∧ s.supply.granted = 0 ∧
       s.supply.granted ≤ s.settings.capacity) ∧
    (let s := queued (sending { appending with supply :=
        ⟨⟨.granted, 25⟩, ⟨.none, 0⟩, ⟨.none, 0⟩, [], false, false⟩ } [.release .winch])
        (.appendCompletion {})
     s.pending = .appendCompletion {} :: [] ∧ s.noneDue = true ∧ s.arrivals.supply.granted = 0 ∧
       s.supply.granted ≤ s.settings.capacity) := by decide +kernel

theorem witness_SupplySafetyIsKept_others (run : AppendRun) (scan : ScanRun) :
    Instr.tripLineAssertion ≠ .appendCompletion run ∧
      Instr.tripLineAssertion ≠ .startUpScanDone scan :=
  ⟨fun h => Instr.noConfusion h, fun h => Instr.noConfusion h⟩

theorem witness_MarksAndPanelsAreKept :
    let s := { wall with marks := [⟨2000000 * 1024, .staleness 5⟩] }
    marksSound s.marks = true ∧ panelsSound s.panels = true := by decide +kernel

theorem witness_RegisterIsKept :
    let s := holding live [{ inState .locked with test := some ⟨4, .accepted, none, none, none,
      none⟩ }]
    s.register.sound = true ∧ s.register.testsSound = true ∧ s.register.marker = true := by
  decide +kernel

theorem witness_PortsAreKept : live.ports.sound = true := by decide +kernel

theorem witness_JournalIsAppendOnly :
    readable.journal.wellKept = true ∧ readable.journal.array.read 32 ≠ 0 := by decide +kernel

theorem witness_SettingsStayInRange :
    (queued live .strokeEdge).settingsSound = true := by decide +kernel

/-- Each of these states answers a next state at its step. -/
theorem witness_steps :
    (∃ t, step (queued wall (.stalenessExpiry 5)) = .next t) ∧
    (∃ t, step (queued live .tripLineAssertion) = .next t) ∧
    (∃ t, step (queued live .strokeEdge) = .next t) ∧
    ∃ t, step (queued appending (.appendCompletion {})) = .next t :=
  ⟨⟨_, rfl⟩, ⟨_, rfl⟩, ⟨_, rfl⟩, ⟨_, rfl⟩⟩

end Sys2Proof.Tests
end

section
/-! SUPPORT. What the end of a start-up's work changes, and how a property kept by the shared operations
is kept by every command. -/

namespace Sys2Proof.Machine

/-! ## The scan (R174) -/

/-- A SPOILED entry is counted by a scan only as it ends READY. -/
theorem Journal.spoilFree_ready {readback : Option (List Byte)} {j : Journal}
    (h : (j.spoilFree readback).2 = true) : (j.spoilFree readback).1.state = .ready := by
  unfold Journal.spoilFree at h ⊢
  simp only [] at h ⊢
  split at h
  · cases h
  · split at h
    · cases h
    · split at h
      next hstop hfit hput => rw [if_neg hstop, if_neg hfit, if_pos hput]; rfl
      · cases h

theorem Journal.scan_ready {readback : Option (List Byte)} {j : Journal}
    (h : (j.scan readback).2 = true) : (j.scan readback).1.state = .ready := by
  unfold Journal.scan at h ⊢
  split at h
  · cases h
  next hslot => rw [if_neg hslot]; exact Journal.spoilFree_ready h

/-- JOURNAL_LOW is raised by a start-up scan only as it ends READY. -/
theorem Journal.startScan_ready {run : ScanRun} {j : Journal} (h : (j.startScan run).2 = true) :
    (j.startScan run).1.state = .ready := by
  unfold Journal.startScan at h ⊢
  simp only [] at h ⊢
  split at h
  next hheader =>
    rw [if_pos hheader]
    simp only [Bool.and_eq_true] at h
    exact Journal.scan_ready h.1
  · cases h

/-- What the scan changes: the journal, the settings, and the one event that it raises, if any. -/
theorem State.scanJournal_eq (run : ScanRun) (s : State) : s.scanJournal run =
    { s with
      journal := (s.journal.startScan run).1
      settings := (s.journal.startScan run).1.foundSettings
      ports := if (s.journal.startScan run).1.state = .fault then s.ports.raise .journalFault
        else if (s.journal.startScan run).2 = true then s.ports.raise .journalLow
        else s.ports } := by
  have hlow := Journal.startScan_ready (run := run) (j := s.journal)
  unfold State.scanJournal
  cases h : (s.journal.startScan run).2 <;>
    by_cases hf : (s.journal.startScan run).1.state = .fault <;>
      simp_all [State.raise]

/-! ## Every command -/

variable {P : State → Prop} {s : State}

namespace Keeps

theorem fixUpRecords (k : Keeps P) (h : P s) : P s.fixUpRecords :=
  k.records _ h fun a => moves_fixUp _ a

theorem settleSlot (k : Keeps P) (c : PendingCertificate) (h : P s) : P (s.settleSlot c) := by
  unfold State.settleSlot
  split
  · exact k.completeCertificate _ h
  · split
    · exact k.completeCertificate none h
    · exact k.ask _ _ _ h

theorem fixUpSlot (k : Keeps P) (h : P s) : P s.fixUpSlot := by
  unfold State.fixUpSlot
  split
  · split
    · exact k.settleSlot _ h
    · exact h
  · exact k.slot none h

/-- A property kept by the shared operations and by the four commands that reach the nonvolatile
blocks as a whole is kept by every command. -/
theorem exec_every (k : Keeps P) (h : P s)
    (hstart : ∀ a b d e, After P (Machine.exec (.startUp a b d e) s))
    (hloss : ∀ a b, After P (Machine.exec (.powerLoss a b) s))
    (hscan : ∀ a, After P (Machine.exec (.startUpScanDone a) s))
    (happend : ∀ a, After P (Machine.exec (.appendCompletion a) s)) (c : Instr) :
    After P (Machine.exec c s) := by
  by_cases h1 : ∃ a b d e, c = .startUp a b d e
  · obtain ⟨a, b, d, e, rfl⟩ := h1
    exact hstart a b d e
  by_cases h2 : ∃ a b, c = .powerLoss a b
  · obtain ⟨a, b, rfl⟩ := h2
    exact hloss a b
  by_cases h3 : ∃ a, c = .startUpScanDone a
  · obtain ⟨a, rfl⟩ := h3
    exact hscan a
  by_cases h4 : ∃ a, c = .appendCompletion a
  · obtain ⟨a, rfl⟩ := h4
    exact happend a
  exact k.exec c (fun a b d e hc => h1 ⟨a, b, d, e, hc⟩) (fun a b hc => h2 ⟨a, b, hc⟩)
    (fun a hc => h3 ⟨a, hc⟩) (fun a hc => h4 ⟨a, hc⟩) h

end Keeps

end Sys2Proof.Machine
end

section
/-! SUPPORT. The anchor register: the order of positions, and what every command keeps of the
register. -/

namespace Sys2Proof.Machine

/-! ## The wall order of positions (R2) -/

theorem Position.lt_irrefl (p : Position) : p.lt p = false := by simp [Position.lt]

theorem Position.lt_trans {p q r : Position} (h : p.lt q = true) (g : q.lt r = true) :
    p.lt r = true := by
  simp only [Position.lt, Bool.or_eq_true, Bool.and_eq_true, decide_eq_true_eq, beq_iff_eq] at *
  omega

theorem Position.lt_of_not_lt {p q : Position} (hne : p ≠ q) (h : p.lt q = false) :
    q.lt p = true := by
  obtain ⟨a, b, c⟩ := p
  obtain ⟨d, e, f⟩ := q
  simp only [Position.lt, Bool.or_eq_false_iff, Bool.and_eq_false_iff, Bool.or_eq_true,
    Bool.and_eq_true, decide_eq_true_eq, decide_eq_false_iff_not, beq_iff_eq,
    beq_eq_false_iff_ne, Position.mk.injEq, ne_eq] at *
  omega

/-! ## Records in order -/

theorem recordsSorted_cons {a : Anchor} {l : List Anchor} :
    recordsSorted (a :: l) = true ↔
      (∀ b ∈ l, a.pos.lt b.pos = true) ∧ recordsSorted l = true := by
  simp [recordsSorted]

/-- A list in order holds one record of each position at most. -/
theorem recordsSorted_unique {l : List Anchor} (h : recordsSorted l = true) {a b : Anchor}
    (ha : a ∈ l) (hb : b ∈ l) (hp : a.pos = b.pos) : a = b := by
  induction l with
  | nil => cases ha
  | cons x rest ih =>
    obtain ⟨hx, hrest⟩ := recordsSorted_cons.mp h
    have below : ∀ y ∈ rest, y.pos ≠ x.pos := fun y hy e => by
      have := hx y hy
      rw [e, Position.lt_irrefl] at this
      cases this
    rcases List.mem_cons.mp ha with ha | ha <;> rcases List.mem_cons.mp hb with hb | hb
    · exact ha.trans hb.symm
    · exact absurd (hp.symm.trans (congrArg Anchor.pos ha)) (below b hb)
    · exact absurd (hp.trans (congrArg Anchor.pos hb)) (below a ha)
    · exact ih hrest ha hb

theorem recordsSorted_filter {l : List Anchor} (f : Anchor → Bool) (h : recordsSorted l = true) :
    recordsSorted (l.filter f) = true := by
  induction l with
  | nil => rfl
  | cons x rest ih =>
    obtain ⟨hx, hrest⟩ := recordsSorted_cons.mp h
    rw [List.filter_cons]
    split
    · exact recordsSorted_cons.mpr ⟨fun b hb => hx b (List.mem_filter.mp hb).1, ih hrest⟩
    · exact ih hrest

/-- A change of records that leaves their positions leaves their order. -/
theorem recordsSorted_map {l : List Anchor} {f : Anchor → Anchor}
    (hf : ∀ a ∈ l, (f a).pos = a.pos) (h : recordsSorted l = true) :
    recordsSorted (l.map f) = true := by
  induction l with
  | nil => rfl
  | cons x rest ih =>
    obtain ⟨hx, hrest⟩ := recordsSorted_cons.mp h
    refine recordsSorted_cons.mpr
      ⟨fun b hb => ?_, ih (fun a ha => hf a (List.mem_cons_of_mem x ha)) hrest⟩
    obtain ⟨a, ha, rfl⟩ := List.mem_map.mp hb
    rw [hf x List.mem_cons_self, hf a (List.mem_cons_of_mem x ha)]
    exact hx a ha

theorem mem_insertRecord {a b : Anchor} {l : List Anchor} :
    b ∈ insertRecord a l ↔ b = a ∨ b ∈ l := by
  induction l with
  | nil => simp [insertRecord]
  | cons x rest ih =>
    simp only [insertRecord]
    split
    · exact List.mem_cons
    · simp only [List.mem_cons, ih]; tauto

theorem length_insertRecord (a : Anchor) (l : List Anchor) :
    (insertRecord a l).length = l.length + 1 := by
  induction l with
  | nil => rfl
  | cons x rest ih =>
    simp only [insertRecord]
    split
    · rfl
    · simp [ih]

/-- A record of a new position is placed in order (R1). -/
theorem recordsSorted_insertRecord {a : Anchor} {l : List Anchor} (h : recordsSorted l = true)
    (hn : ∀ b ∈ l, b.pos ≠ a.pos) : recordsSorted (insertRecord a l) = true := by
  induction l with
  | nil => rfl
  | cons x rest ih =>
    obtain ⟨hx, hrest⟩ := recordsSorted_cons.mp h
    simp only [insertRecord]
    split
    next hlt =>
      refine recordsSorted_cons.mpr ⟨fun b hb => ?_, h⟩
      rcases List.mem_cons.mp hb with rfl | hb
      · exact hlt
      · exact Position.lt_trans hlt (hx b hb)
    next hge =>
      have hxa : x.pos.lt a.pos = true :=
        Position.lt_of_not_lt (hn x List.mem_cons_self).symm (by simpa using hge)
      refine recordsSorted_cons.mpr
        ⟨fun b hb => ?_, ih hrest fun b hb => hn b (List.mem_cons_of_mem x hb)⟩
      rcases mem_insertRecord.mp hb with rfl | hb
      · exact hxa
      · exact hx b hb

/-! ## Finding a record -/

theorem Register.find_mem {r : Register} {p : Position} {a : Anchor} (h : r.find p = some a) :
    a ∈ r.records := List.mem_of_find?_eq_some h

theorem Register.find_pos {r : Register} {p : Position} {a : Anchor} (h : r.find p = some a) :
    a.pos = p := by
  simpa using List.find?_some h

theorem Register.find_eq_none {r : Register} {p : Position} :
    r.find p = none ↔ ∀ a ∈ r.records, a.pos ≠ p := by
  simp [Register.find]

/-! ## The register in order and bounded (R1, R2) -/

theorem Register.sound_iff (r : Register) : r.sound = true ↔
    recordsSorted r.records = true ∧ (∀ a ∈ r.records, a.pos.valid = true) ∧
      r.records.length ≤ Config.maxRecords := by
  simp [Register.sound, and_assoc]

/-- In an ordered register the record found is the only one of its position. -/
theorem Register.eq_of_find {r : Register} (h : r.sound = true) {p : Position} {a b : Anchor}
    (ha : r.find p = some a) (hb : b ∈ r.records) (hp : b.pos = p) : b = a :=
  recordsSorted_unique ((Register.sound_iff r).mp h).1 hb (Register.find_mem ha)
    (hp.trans (Register.find_pos ha).symm)

/-- Changes of records that leave their positions keep the register in order and bounded. -/
theorem Register.sound_map {r : Register} {f : Anchor → Anchor} (h : r.sound = true)
    (hf : ∀ a ∈ r.records, (f a).pos = a.pos) :
    Register.sound { r with records := r.records.map f } = true := by
  obtain ⟨hs, hv, hl⟩ := (Register.sound_iff r).mp h
  refine (Register.sound_iff _).mpr ⟨recordsSorted_map hf hs, fun b hb => ?_, by simpa using hl⟩
  obtain ⟨a, ha, rfl⟩ := List.mem_map.mp hb
  rw [hf a ha]
  exact hv a ha

/-! ## Operations that leave the register as it is -/

theorem State.acceptRelease_register (e : Engine) (s : State) :
    (s.acceptRelease e).register = s.register := by
  unfold State.acceptRelease
  split <;> rfl

theorem State.scanJournal_register (run : ScanRun) (s : State) :
    (s.scanJournal run).register = s.register := by rw [State.scanJournal_eq]

/-! ## What every command keeps of the register -/

/-- A property of the register that each change of it keeps: the transitions of records (R10), the
slot's (R15), DECLARE, WITHDRAW, and the check of the format marker at a start-up (R1). -/
structure Register.Kept (Q : Register → Prop) : Prop where
  moved : ∀ {r : Register} {f : Anchor → Anchor}, Q r → (∀ a ∈ r.records, a.Moves (f a)) →
    Q { r with records := r.records.map f }
  slot : ∀ {r : Register} (x : Option PendingCertificate), Q r → Q { r with slot := x }
  declare : ∀ {r : Register} {pos : Position} (d : Design), Q r → r.find pos = none →
    pos.valid = true → r.records.length < Config.maxRecords →
    Q { r with records := insertRecord (.declared pos d) r.records }
  withdraw : ∀ {r : Register} {p : Position} {a : Anchor}, Q r → r.find p = some a →
    a.state = .declared → Q (r.remove p)
  check : ∀ {r : Register}, Q r → Q r.check
  sound : ∀ {r : Register}, Q r → r.sound = true

variable {Q : Register → Prop}

namespace Register.Kept

/-- Such a property survives every shared operation. -/
theorem keeps (q : Register.Kept Q) : Keeps fun s => Q s.register where
  free {s t} h e := by
    have hr : t.register = s.register := congrArg Guarded.register e
    simpa only [hr] using h
  insertMark _ _ h := h
  dropMarks _ h := h
  headMark h _ := h
  duty _ _ _ h := h
  period _ _ h := h
  claim _ _ h _ _ := h
  release e h := by simpa only [State.acceptRelease_register] using h
  line _ h := h
  trip h _ := h
  clear h := h
  raise _ h := h
  port _ _ h _ := h
  records _ h hf := q.moved h fun a _ => hf a
  found {s p a} f h ha hf := by
    refine q.moved (f := fun b => if b.pos = p then f b else b) h fun b hb => ?_
    show b.Moves (if b.pos = p then f b else b)
    split
    next hp => rw [Register.eq_of_find (q.sound h) ha hb hp]; exact hf
    next => exact ⟨rfl, fun _ => rfl, id⟩
  slot x h := q.slot x h
  declare d h hn hv hl := q.declare d h hn hv hl
  withdraw h ha hs := q.withdraw h ha hs
  panel _ _ h _ := h
  ask _ _ _ h := h
  settle _ h _ := h
  stage _ _ h _ := h
  profile _ _ _ h := h
  unstage h := h

/-! ## The four commands that reach the nonvolatile blocks as a whole -/

theorem startedUp (q : Register.Kept Q) (cause : StartCause) (pins : StartPins) (phases : Nat)
    (run : AppendRun) {s : State} (h : Q s.register) :
    After (fun t => Q t.register) (exec (.startUp cause pins phases run) s) := by
  have hd : Q s.expireDue.register := q.keeps.expireDue h
  show After (fun t => Q t.register) (onStartUp cause pins phases run s.expireDue)
  unfold onStartUp
  split
  · exact hd
  · exact q.check hd

theorem powerLost (q : Register.Kept Q) (phases : Nat) (run : AppendRun) {s : State}
    (h : Q s.register) : After (fun t => Q t.register) (exec (.powerLoss phases run) s) :=
  Keeps.powered (P := fun t => Q t.register) (q.keeps.expireDue h) fun _ hu => hu

theorem finishStartUp (q : Register.Kept Q) (run : ScanRun) {s : State} (h : Q s.register) :
    Q (s.finishStartUp run).register := by
  have hscan : Q (s.scanJournal run).register := by rwa [State.scanJournal_register]
  exact q.keeps.fixUpSlot (q.keeps.fixUpRecords hscan)

theorem scanDone (q : Register.Kept Q) (run : ScanRun) {s : State} (h : Q s.register) :
    After (fun t => Q t.register) (exec (.startUpScanDone run) s) := by
  have hd : Q s.expireDue.register := q.keeps.expireDue h
  show After (fun t => Q t.register) (onStartUpScanDone run s.expireDue)
  unfold onStartUpScanDone
  split
  · exact hd
  · exact q.finishStartUp run hd

/-! ## Every command, and every step -/

theorem exec (q : Register.Kept Q) (c : Instr) {s : State} (h : Q s.register) :
    After (fun t => Q t.register) (Machine.exec c s) :=
  q.keeps.exec_every h (fun a b d e => q.startedUp a b d e h) (fun a b => q.powerLost a b h)
    (fun run => q.scanDone run h) (fun run => q.keeps.appended (fun hu _ => hu) run h) c

theorem step (q : Register.Kept Q) {s t : State} (h : Q s.register)
    (hst : Machine.step s = .next t) : Q t.register := by
  unfold Machine.step at hst
  split at hst
  · cases hst
    exact h
  · next c rest _ =>
    have he : After (fun t => Q t.register) (Machine.exec c { s with pending := rest }) :=
      q.exec c h
    rw [hst] at he
    exact he

end Register.Kept

/-! ## The register's three properties -/

/-- Order, valid positions and the bound of 512 records are kept (R1, R2). -/
theorem Register.sound_kept : Register.Kept fun r => r.sound = true where
  moved h hf := Register.sound_map h fun a ha => (hf a ha).1
  slot _ h := h
  declare {r pos} d h hn hv hl := by
    obtain ⟨hs, hval, -⟩ := (Register.sound_iff r).mp h
    refine (Register.sound_iff _).mpr
      ⟨recordsSorted_insertRecord hs (Register.find_eq_none.mp hn), fun b hb => ?_, ?_⟩
    · rcases mem_insertRecord.mp hb with rfl | hb
      · exact hv
      · exact hval b hb
    · simp only [length_insertRecord]; exact hl
  withdraw {r p a} h _ _ := by
    obtain ⟨hs, hv, hl⟩ := (Register.sound_iff r).mp h
    refine (Register.sound_iff _).mpr ⟨recordsSorted_filter _ hs, fun b hb => ?_, ?_⟩
    · exact hv b (List.mem_filter.mp hb).1
    · exact Nat.le_trans (List.length_filter_le _ _) hl
  check {r} h := by
    unfold Register.check
    split
    · exact h
    · rfl
  sound h := h

theorem Register.testsSound_iff (r : Register) :
    r.testsSound = true ↔ ∀ a ∈ r.records, a.testSound = true := by
  simp [Register.testsSound]

theorem Anchor.declared_testSound (pos : Position) (d : Design) :
    (Anchor.declared pos d).testSound = true := rfl

/-- The bound of the test counts is kept in an ordered register (R7). -/
theorem Register.testsSound_kept :
    Register.Kept fun r => r.sound = true ∧ r.testsSound = true where
  moved {r f} h hf := by
    refine ⟨Register.sound_kept.moved h.1 hf, (Register.testsSound_iff _).mpr fun b hb => ?_⟩
    obtain ⟨a, ha, rfl⟩ := List.mem_map.mp hb
    exact (hf a ha).2.2 ((Register.testsSound_iff r).mp h.2 a ha)
  slot _ h := h
  declare {r pos} d h hn hv hl := by
    refine ⟨Register.sound_kept.declare d h.1 hn hv hl,
      (Register.testsSound_iff _).mpr fun b hb => ?_⟩
    rcases mem_insertRecord.mp hb with rfl | hb
    · exact Anchor.declared_testSound pos d
    · exact (Register.testsSound_iff r).mp h.2 b hb
  withdraw {r p a} h ha hs := by
    refine ⟨Register.sound_kept.withdraw h.1 ha hs,
      (Register.testsSound_iff _).mpr fun b hb => ?_⟩
    exact (Register.testsSound_iff r).mp h.2 b (List.mem_filter.mp hb).1
  check {r} h := by
    unfold Register.check
    split
    · exact h
    · exact ⟨rfl, rfl⟩
  sound h := h.1

/-- An ordered register that has its format marker and holds the LOCKED records of a list. -/
def Register.HoldsLocked (l : List Anchor) (r : Register) : Prop :=
  r.sound = true ∧ r.marker = true ∧ ∀ a ∈ l, a.state = .locked → a ∈ r.records

/-- A LOCKED record stays as it is while the register has its format marker (R9, R20, R21). -/
theorem Register.holdsLocked_kept (l : List Anchor) : Register.Kept (Register.HoldsLocked l) where
  moved {r f} h hf := by
    obtain ⟨hs, hm, hl⟩ := h
    refine ⟨Register.sound_kept.moved hs hf, hm, fun a ha hk => ?_⟩
    exact List.mem_map.mpr ⟨a, hl a ha hk, (hf a (hl a ha hk)).2.1 hk⟩
  slot _ h := h
  declare d h hn hv hb :=
    ⟨Register.sound_kept.declare d h.1 hn hv hb, h.2.1, fun a ha hk =>
      mem_insertRecord.mpr (.inr (h.2.2 a ha hk))⟩
  withdraw {r p b} h hb hd := by
    obtain ⟨hs, hm, hl⟩ := h
    refine ⟨Register.sound_kept.withdraw hs hb hd, hm, fun a ha hk =>
      List.mem_filter.mpr ⟨hl a ha hk, ?_⟩⟩
    have hne : a.pos ≠ p := fun hp => by
      have hab : a = b := Register.eq_of_find hs hb (hl a ha hk) hp
      rw [hab, hd] at hk
      cases hk
    simpa using hne
  check {r} h := by
    unfold Register.check
    rw [if_pos h.2.1]
    exact h
  sound h := h.1

end Sys2Proof.Machine

namespace Sys2Proof.Proofs

open Sys2Proof.Machine

/-- Settles O57: each property of the register is kept by every change of it, hence by every step. -/
theorem registerIsKept : Obligations.RegisterIsKept := by
  refine ⟨fun s t hs hst => Register.sound_kept.step hs hst,
    fun s t hs ht hst => (Register.testsSound_kept.step ⟨hs, ht⟩ hst).2,
    fun s t hs hm hst => ?_⟩
  obtain ⟨-, hmarker, hlocked⟩ :=
    (Register.holdsLocked_kept s.register.records).step ⟨hs, hm, fun a ha _ => ha⟩ hst
  exact ⟨hmarker, hlocked⟩

end Sys2Proof.Proofs
end

section
/-! SUPPORT. What every command answers: a next state with the queue as it was, and without main
supply nothing but three commands. -/

namespace Sys2Proof.Machine

/-! ## Every request is a submission -/

/-- A request command is a submission of its request, on the state in which no mark is due. -/
theorem exec_request {c : Instr} {r : Request} (h : asRequest c = some r) :
    ∃ decide, ∀ s, exec c s =
      submit r.port r.code r.form r.access r.held decide s.expireDue := by
  cases c <;> cases h <;> exact ⟨_, fun _ => rfl⟩

/-- A submission by its code is that of a request in the catalogue, or of an unknown one. -/
theorem submission_cases (p : PortNo) (code : Byte) (form : List Byte) (s : State) :
    (∃ k acc held decide, submission p code form s = submit p k form acc held decide s) ∨
      submission p code form s = submitUnknown p code form s := by
  unfold submission
  split
  case h_31 => exact .inr rfl
  all_goals exact .inl ⟨_, _, _, _, rfl⟩

/-! ## Every command answers a next state -/

theorem Decision.finish_next (p : PortNo) (d : Decision) : ∃ t, d.finish p = .next t := by
  cases d <;> exact ⟨_, rfl⟩

theorem submit_next (p : PortNo) (code : Byte) (form : List Byte) (acc : Access) (held : Bool)
    (decide : List Byte → State → Decision) (s : State) :
    ∃ t, submit p code form acc held decide s = .next t := by
  unfold submit
  split
  · exact ⟨_, rfl⟩
  · split
    · exact ⟨_, rfl⟩
    · split
      · exact ⟨_, rfl⟩
      · exact Decision.finish_next p _

theorem submitUnknown_next (p : PortNo) (code : Byte) (form : List Byte) (s : State) :
    ∃ t, submitUnknown p code form s = .next t := by
  unfold submitUnknown
  split
  · exact ⟨_, rfl⟩
  · split <;> exact ⟨_, rfl⟩

theorem submission_next (p : PortNo) (code : Byte) (form : List Byte) (s : State) :
    ∃ t, submission p code form s = .next t := by
  rcases submission_cases p code form s with ⟨k, acc, held, decide, h⟩ | h
  · rw [h]; exact submit_next p k form acc held decide s
  · rw [h]; exact submitUnknown_next p code form s

theorem onMailboxWrite_next (p : PortNo) (off : Byte) (bs : List Byte) (stop : Bool) (s : State) :
    ∃ t, onMailboxWrite p off bs stop s = .next t := by
  unfold onMailboxWrite
  split
  · split
    · exact submission_next _ _ _ _
    · exact ⟨_, rfl⟩
  · exact ⟨_, rfl⟩

theorem onStartUp_next (cause : StartCause) (pins : StartPins) (phases : Nat) (run : AppendRun)
    (s : State) : ∃ t, onStartUp cause pins phases run s = .next t := by
  unfold onStartUp
  split <;> exact ⟨_, rfl⟩

theorem onStartUpScanDone_next (run : ScanRun) (s : State) :
    ∃ t, onStartUpScanDone run s = .next t := by
  unfold onStartUpScanDone
  split <;> exact ⟨_, rfl⟩

/-- No command ends in a fault or a refusal. -/
theorem exec_next (c : Instr) (s : State) : ∃ t, exec c s = .next t := by
  cases hr : asRequest c with
  | some r =>
    obtain ⟨decide, he⟩ := exec_request hr
    rw [he]
    exact submit_next _ _ _ _ _ _ _
  | none =>
    cases c <;> cases hr
    case startUp.refl a b d e => exact onStartUp_next a b d e _
    case mailboxWrite.refl p off bs stop => exact onMailboxWrite_next p off bs stop _
    case unknownRequestSubmission.refl p code form => exact submission_next p code form _
    case startUpScanDone.refl run => exact onStartUpScanDone_next run _
    all_goals exact ⟨_, rfl⟩

/-! ## No command touches the queue -/

theorem State.acceptRelease_pending (e : Engine) (s : State) :
    (s.acceptRelease e).pending = s.pending := by
  unfold State.acceptRelease
  split <;> rfl

/-- The queue of commands survives every shared operation. -/
theorem keeps_pending (q : List Instr) : Keeps fun s => s.pending = q where
  free h e := (congrArg Guarded.pending e).trans h
  insertMark _ _ h := h
  dropMarks _ h := h
  headMark h _ := h
  duty _ _ _ h := h
  period _ _ h := h
  claim _ _ h _ _ := h
  release e h := (State.acceptRelease_pending e _).trans h
  line _ h := h
  trip h _ := h
  clear h := h
  raise _ h := h
  port _ _ h _ := h
  records _ h _ := h
  found _ h _ _ := h
  slot _ h := h
  declare _ h _ _ _ := h
  withdraw h _ _ := h
  panel _ _ h _ := h
  ask _ _ _ h := h
  settle _ h _ := h
  stage _ _ h _ := h
  profile _ _ _ h := h
  unstage h := h

theorem State.finishStartUp_pending (run : ScanRun) (s : State) :
    (s.finishStartUp run).pending = s.pending := by
  have k := keeps_pending s.pending
  have hscan : (s.scanJournal run).pending = s.pending := by rw [State.scanJournal_eq]
  exact k.fixUpSlot (k.fixUpRecords hscan)

theorem exec_pending {c : Instr} {s t : State} (h : exec c s = .next t) :
    t.pending = s.pending := by
  have k := keeps_pending s.pending
  have hdue : s.expireDue.pending = s.pending := k.expireDue rfl
  have hafter : After (fun u => u.pending = s.pending) (exec c s) := by
    refine k.exec_every rfl (fun cause pins phases run => ?_) (fun phases run => ?_) (fun run => ?_)
      (fun run => k.appended (fun hu _ => hu) run rfl) c
    · show After _ (onStartUp cause pins phases run s.expireDue)
      unfold onStartUp
      split <;> exact hdue
    · exact Keeps.powered (P := fun u => u.pending = s.pending) hdue fun _ hu => hu
    · show After _ (onStartUpScanDone run s.expireDue)
      unfold onStartUpScanDone
      split
      · exact hdue
      · exact (State.finishStartUp_pending run _).trans hdue
  rw [h] at hafter
  exact hafter

/-! ## A part without main supply -/

theorem State.acksOffset_unpowered {s : State} (h : s.powered = false) (p : PortNo) (off : Nat) :
    s.acksOffset p off = false := by
  simp [State.acksOffset, State.acksAddress, h]

theorem State.storeAt_unpowered {s : State} (h : s.powered = false) (p : PortNo) (off : Nat)
    (bs : List Byte) : s.storeAt p off bs = s := by
  simp [State.storeAt, State.acksOffset_unpowered h]

theorem submit_unpowered {s : State} (h : s.powered = false) (p : PortNo) (code : Byte)
    (form : List Byte) (acc : Access) (held : Bool) (decide : List Byte → State → Decision) :
    submit p code form acc held decide s = .next s := by
  simp [submit, State.portOpen, State.acksOffset_unpowered h]

theorem submitUnknown_unpowered {s : State} (h : s.powered = false) (p : PortNo) (code : Byte)
    (form : List Byte) : submitUnknown p code form s = .next s := by
  simp [submitUnknown, State.portOpen, State.acksOffset_unpowered h]

theorem submission_unpowered {s : State} (h : s.powered = false) (p : PortNo) (code : Byte)
    (form : List Byte) : submission p code form s = .next s := by
  rcases submission_cases p code form s with ⟨k, acc, held, decide, he⟩ | he
  · rw [he, submit_unpowered h]
  · rw [he, submitUnknown_unpowered h]

theorem onMailboxWrite_unpowered {s : State} (h : s.powered = false) (p : PortNo) (off : Byte)
    (bs : List Byte) (stop : Bool) : onMailboxWrite p off bs stop s = .next s := by
  unfold onMailboxWrite
  split
  · rw [submission_unpowered h, State.storeAt_unpowered h, ite_self]
  · rw [State.storeAt_unpowered h]

/-- Without main supply a command does nothing, but for a start-up, the clock's tick and the loss of
the clock's domain (R1, R28). -/
theorem exec_unpowered {c : Instr} {s : State} (h : s.powered = false)
    (h1 : ∀ cause pins phases run, c ≠ .startUp cause pins phases run) (h2 : c ≠ .siteClockTick)
    (h3 : c ≠ .clockDomainSupplyLoss) : exec c s = .next s := by
  have hd : s.expireDue = s := State.expireDue_unpowered h
  have off : ∀ f : State → State, (.next (s.expireDue.whenPowered f) :
      Host.Outcome State Fault Refusal) = .next s := fun f => by
    rw [hd, State.whenPowered_neg h]
  cases hr : asRequest c with
  | some r =>
    obtain ⟨decide, he⟩ := exec_request hr
    rw [he, hd, submit_unpowered h]
  | none =>
    cases c <;> cases hr
    case startUp.refl a b d e => exact absurd rfl (h1 a b d e)
    case siteClockTick.refl => exact absurd rfl h2
    case clockDomainSupplyLoss.refl => exact absurd rfl h3
    case mailboxWrite.refl p bs b stop =>
      show onMailboxWrite p bs b stop s.expireDue = .next s
      rw [hd, onMailboxWrite_unpowered h]
    case unknownRequestSubmission.refl p code form =>
      show submission p code form s.expireDue = .next s
      rw [hd, submission_unpowered h]
    case startUpScanDone.refl run =>
      show onStartUpScanDone run s.expireDue = .next s
      simp [onStartUpScanDone, h]
    case stalenessExpiry.refl | batchExpiry.refl | jamExpiry.refl | coldJointExpiry.refl |
        refusalExpiry.refl | creepExpiry.refl | holdEndExpiry.refl | seatExpiry.refl |
        suspensionExpiry.refl =>
      exact congrArg Host.Outcome.next (State.whenPowered_neg h _)
    all_goals exact off _

end Sys2Proof.Machine

namespace Sys2Proof.Proofs

open Sys2Proof.Machine

/-- Settles O2: every command answers a next state, and the queue survives what each of them does. -/
theorem commandsKeepQueueAndGoOn : Obligations.CommandsKeepQueueAndGoOn := by
  refine ⟨fun c s => ?_, fun c s h h1 h2 h3 => exec_unpowered h h1 h2 h3⟩
  obtain ⟨t, ht⟩ := exec_next c s
  exact ⟨t, ht, exec_pending ht⟩

end Sys2Proof.Proofs
end

section
/-! SUPPORT. Requests that a port hands on: what their owner's decision makes of them, for the
register's requests; and the cure rule. -/

namespace Sys2Proof.Machine

/-! ## Requests that the port hands on -/

/-- A command is a submission that an owner decides with a given function. -/
def DecidedBy (c : Instr) (decide : List Byte → State → Decision) : Prop :=
  ∀ r, asRequest c = some r → ∀ s, exec c s =
    submit r.port r.code r.form r.access r.held decide s.expireDue

/-- A request handed on gets the reply that its owner decides, from the state with the submission
taken. -/
theorem Handed.reply {c : Instr} {s : State} {r : Request} {ps : List Byte}
    {decide : List Byte → State → Decision} {st : Status} {data : List Byte} {f : State → State}
    (h : Handed c s r ps) (hc : DecidedBy c decide)
    (hd : decide ps (s.taken r.port r.code r.form) =
      .reply st data (f (s.taken r.port r.code r.form))) :
    exec c s = s.replied r st data f := by
  have ⟨hr, ⟨_, hdue, _⟩, _⟩ := h
  refine reply_of_handed h ?_ hd
  rw [hc r hr s, State.expireDue_noneDue hdue]

theorem declare_decided (p : PortNo) (form : List Byte) :
    DecidedBy (.declare p form) decideDeclare := fun _ h _ => by cases h; rfl

theorem withdraw_decided (p : PortNo) (form : List Byte) :
    DecidedBy (.withdraw p form) decideWithdraw := fun _ h _ => by cases h; rfl

theorem abandon_decided (p : PortNo) (form : List Byte) :
    DecidedBy (.abandon p form) decideAbandon := fun _ h _ => by cases h; rfl

theorem seek_decided (p : PortNo) (form : List Byte) :
    DecidedBy (.seek p form) (decideSeek p) := fun _ h _ => by cases h; rfl

theorem nextRecord_decided (p : PortNo) (form : List Byte) :
    DecidedBy (.nextRecord p form) (decideNext p) := fun _ h _ => by cases h; rfl

theorem inspect_decided (p : PortNo) (form : List Byte) :
    DecidedBy (.inspect p form) decideInspect := fun _ h _ => by cases h; rfl

theorem startWinch_decided (p : PortNo) (form : List Byte) :
    DecidedBy (.startWinch p form) decideStartWinch := fun _ h _ => by cases h; rfl

theorem continueWinch_decided (p : PortNo) (form : List Byte) :
    DecidedBy (.continueWinch p form) decideContinueWinch := fun _ h _ => by cases h; rfl

theorem abortWinch_decided (p : PortNo) (form : List Byte) :
    DecidedBy (.abortWinch p form) decideAbortWinch := fun _ h _ => by cases h; rfl

theorem startGrout_decided (p : PortNo) (form : List Byte) :
    DecidedBy (.startGrout p form) decideStartGrout := fun _ h _ => by cases h; rfl

theorem continueGrout_decided (p : PortNo) (form : List Byte) :
    DecidedBy (.continueGrout p form) decideContinueGrout := fun _ h _ => by cases h; rfl

theorem abortGrout_decided (p : PortNo) (form : List Byte) :
    DecidedBy (.abortGrout p form) decideAbortGrout := fun _ h _ => by cases h; rfl

theorem startTest_decided (p : PortNo) (form : List Byte) :
    DecidedBy (.startTest p form) decideStartTest := fun _ h _ => by cases h; rfl

theorem abortTest_decided (p : PortNo) (form : List Byte) :
    DecidedBy (.abortTest p form) decideAbortTest := fun _ h _ => by cases h; rfl

/-- Taking a submission leaves its port's cursor. -/
theorem State.taken_cursor (p : PortNo) (code : Byte) (form : List Byte) (s : State) :
    ((s.taken p code form).ports.get p).cursor = (s.ports.get p).cursor := by
  simp [Port.accept, Port.store]

/-! ## DECLARE, WITHDRAW, ABANDON (R19, R20, R21) -/

theorem within_eq_true {lo hi n : Nat} : within lo hi n = true ↔ lo ≤ n ∧ n ≤ hi := by
  simp [within]

/-- A DECLARE has no field out of range when its position is valid and in use and every design value
passes its check. -/
theorem declareOutOfRange_eq_none {count : Nat} {pos : Position} {d : Design} :
    declareOutOfRange count pos d = none ↔
      pos.valid = true ∧ pos.panel ≤ count ∧ ∀ ok ∈ d.checks, ok = true := by
  simp [declareOutOfRange, List.findIdx?_eq_none_iff, and_assoc]

/-- A DECLARE that passes its checks places its record. -/
theorem decideDeclare_accepted {ps : List Byte} {s : State} (hl : ps.length = 20)
    (hr : declareOutOfRange s.settings.panelCount (positionAt ps 0) (designOf ps) = none)
    (hn : s.register.find (positionAt ps 0) = none)
    (hb : s.register.records.length < Config.maxRecords) :
    decideDeclare ps s = .reply .ok [] { s with register := { s.register with
      records := insertRecord (.declared (positionAt ps 0) (designOf ps)) s.register.records } } := by
  simp [decideDeclare, hl, hr, hn, Nat.not_le.mpr hb]

/-- WITHDRAW of a record removes it when it is DECLARED, and is refused otherwise. -/
theorem decideWithdraw_found {ps : List Byte} {s : State} {a : Anchor} (hl : ps.length = 3)
    (hv : (positionAt ps 0).valid = true) (ha : s.register.find (positionAt ps 0) = some a) :
    decideWithdraw ps s =
      if a.state = .declared then
        .reply .ok [] { s with register := s.register.remove (positionAt ps 0) }
      else refuse .wrongState s := by
  by_cases h : a.state = .declared <;> simp [decideWithdraw, hl, hv, ha, h]

/-- ABANDON of a record makes it ABANDONED when it may be abandoned, and is refused otherwise. -/
theorem decideAbandon_found {ps : List Byte} {s : State} {a : Anchor} (hl : ps.length = 3)
    (hv : (positionAt ps 0).valid = true) (ha : s.register.find (positionAt ps 0) = some a) :
    decideAbandon ps s =
      if a.abandonable = true then
        .reply .ok [] (s.modifyAnchor (positionAt ps 0) fun x => { x with state := .abandoned })
      else refuse .wrongState s := by
  simp [decideAbandon, hl, hv, ha]

theorem Anchor.groutPart_postCount (a : Anchor) : a.groutPart.postCount = a.postCount := by
  cases h : a.grout <;> simp [Anchor.groutPart, Anchor.postCount, h]

theorem Anchor.testPart_count (a : Anchor) : a.testPart.count = a.tests := by
  cases h : a.test <;> simp [Anchor.testPart, Anchor.tests, h]

theorem Anchor.abandonable_iff (a : Anchor) : a.abandonable = true ↔
    ((a.state = .short ∨ a.state = .failed) ∧ a.groutPart.postCount = 2) ∨
      ((a.state = .grouted ∨ a.state = .failed) ∧ a.testPart.count = 4) := by
  simp [Anchor.abandonable, Anchor.groutPart_postCount, Anchor.testPart_count]

/-! ## NEXT (R23) -/

/-- The record past a cursor is the first that is beyond it. -/
theorem Register.next_split {r : Register} {c : Option Position} {before after : List Anchor}
    {a : Anchor} (hr : r.records = before ++ a :: after)
    (hb : ∀ b ∈ before, beyond c b.pos = false) (ha : beyond c a.pos = true) :
    r.next c = some a := by
  have hbefore : before.find? (fun b => beyond c b.pos) = none := by simpa using hb
  rw [Register.next, hr, List.find?_append, hbefore]
  simp [ha]

theorem Register.next_eq_none {r : Register} {c : Option Position} :
    r.next c = none ↔ ∀ b ∈ r.records, beyond c b.pos = false := by
  simp [Register.next]

theorem decideNext_found {p : PortNo} {s : State} {a : Anchor}
    (h : s.register.next (s.ports.get p).cursor = some a) :
    decideNext p [] s = .reply .ok (encAnchor a) (s.setCursor p (some a.pos)) := by
  simp [decideNext, h]

theorem decideNext_none {p : PortNo} {s : State}
    (h : s.register.next (s.ports.get p).cursor = none) :
    decideNext p [] s = refuse .noRecord s := by
  simp [decideNext, h]

/-! ## The cure rule (R18) -/

/-- An anchor with a grout end time is cured once the cure period has passed. -/
theorem Anchor.hoursToCure_ended {a : Anchor} {t : Nat}
    (h : a.grout.bind GroutPart.endTime = some t) (period now : Nat) :
    a.hoursToCure period now = if t + 3600 * period ≤ now then none
      else some (ceilDiv (t + 3600 * period - now) 3600) := by
  simp [Anchor.hoursToCure, h]

/-- Hours rounded up: the least whole number of hours that is no less than a time in seconds. -/
theorem ceilDiv_3600_bounds {n : Nat} :
    n ≤ 3600 * ceilDiv n 3600 ∧ 3600 * ceilDiv n 3600 < n + 3600 := by
  unfold ceilDiv
  omega

/-! ## A port at start-up (R181, R183) -/

theorem Port.atStartUp_mailSound (role : Role) (unset : Bool) :
    (Port.atStartUp role unset).mailSound = true := by
  have hl : (Port.atStartUp role unset).mem.length = 256 := List.length_replicate
  have hs : (Port.atStartUp role unset).mailState = .empty := rfl
  simp [Port.mailSound, hl, hs]

theorem Port.atStartUp_flagsSound (role : Role) (unset : Bool) :
    (Port.atStartUp role unset).flagsSound = true := by
  by_cases h : role = .disabled <;> simp [Port.flagsSound, Port.atStartUp, h]

/-- Four ports at start-up are sound, whatever their roles. -/
theorem Ports.atStartUp_sound (a b c d : Role) (unset : Bool) :
    Ports.sound ⟨.atStartUp a unset, .atStartUp b unset, .atStartUp c unset,
      .atStartUp d unset⟩ = true := by
  simp [Ports.sound, Port.atStartUp_mailSound, Port.atStartUp_flagsSound]

end Sys2Proof.Machine

namespace Sys2Proof.Proofs

open Sys2Proof.Machine

/-- Settles O8: each of the three requests by what its decision makes of the record it names. -/
theorem recordsArePlacedAndEnded : Obligations.RecordsArePlacedAndEnded := by
  refine ⟨?_, ?_, ?_⟩
  · intro p form s r ps h hl hp1 hp2 hp3 ht1 ht2 hs1 hs2 hd1 hd1' hd2 hd2' hd3 hd3' hd4 hd4' hd5
      hd5' hd6 hd6' hd7 hd7' hd8 hd8' hd9 hd9' hn hb
    refine h.reply (declare_decided p form) (decideDeclare_accepted hl ?_ hn hb)
    refine declareOutOfRange_eq_none.mpr ⟨?_, hp3, ?_⟩
    · simp [Position.valid, positionAt, *]
    · simp [Design.checks, designOf, within_eq_true, *]
  · intro p form s r ps a h hl hv ha
    have hdec := decideWithdraw_found (s := s.taken r.port r.code r.form) hl hv ha
    refine ⟨fun hs => h.reply (withdraw_decided p form) (hdec.trans (if_pos hs)),
      fun hs => h.reply (withdraw_decided p form) (hdec.trans (if_neg hs))⟩
  · intro p form s r ps a h hl hv ha
    have hdec := decideAbandon_found (s := s.taken r.port r.code r.form) hl hv ha
    split
    next hc =>
      exact h.reply (abandon_decided p form)
        (hdec.trans (if_pos ((Anchor.abandonable_iff a).mpr hc)))
    next hc =>
      exact h.reply (abandon_decided p form)
        (hdec.trans (if_neg fun ha => hc ((Anchor.abandonable_iff a).mp ha)))

/-- Settles O9: SEEK and NEXT by the cursor of the port, INSPECT by the record found. -/
theorem registerWalk : Obligations.RegisterWalk := by
  refine ⟨?_, ?_, ?_⟩
  · intro p form s r ps h
    refine ⟨fun hl => h.reply (seek_decided p form) ?_,
      fun hl hv => h.reply (seek_decided p form) ?_⟩
    · simp [decideSeek, hl, State.setCursor]
    · simp [decideSeek, hl, hv, State.setCursor]
  · intro p form s r h
    have hcursor : ((s.taken r.port r.code r.form).ports.get p).cursor = (s.ports.get p).cursor := by
      obtain ⟨hr, -⟩ := h
      cases hr
      exact State.taken_cursor p _ _ s
    refine ⟨fun before after a hrec hb ha =>
        h.reply (nextRecord_decided p form) (decideNext_found ?_),
      fun hb => h.reply (nextRecord_decided p form) (decideNext_none ?_)⟩
    · rw [hcursor]
      exact Register.next_split hrec hb ha
    · rw [hcursor]
      exact Register.next_eq_none.mpr hb
  · intro p form s r ps h hl hv
    split
    next a ha => exact h.reply (inspect_decided p form) (by simp [decideInspect, hl, hv, ha])
    next ha => exact h.reply (inspect_decided p form) (by simp [decideInspect, hl, hv, ha, refuse])

/-- Settles O10: the remaining seconds, rounded up to hours. -/
theorem cureRule : Obligations.CureRule := by
  intro a period now
  refine ⟨fun g t hg ht => ?_, fun hn => by simp [Anchor.hoursToCure, hn]⟩
  have hend : a.grout.bind GroutPart.endTime = some t := by rw [hg]; exact ht
  rw [Anchor.hoursToCure_ended hend]
  refine ⟨by simp, fun h hh => ?_⟩
  split at hh
  · cases hh
  · cases hh
    have := ceilDiv_3600_bounds (n := t + 3600 * period - now)
    omega

/-- Settles O54: each invariant is evaluated on the state right after reset. -/
theorem resetMeetsInvariants : Obligations.ResetMeetsInvariants := by
  exact ⟨rfl, rfl, by decide, rfl, rfl, rfl, rfl, Ports.atStartUp_sound _ _ _ _ _, rfl, rfl, rfl⟩

end Sys2Proof.Proofs
end

section
/-! SUPPORT. The winch and the grout engine: what an accepted start, a continue, an abort and the end
of a grouting make of the state. -/

namespace Sys2Proof.Machine

/-! ## An output written 0 (R68, R70) -/

/-- The winch engine's duty 0 turns its output off, unless a trip holds the outputs. -/
theorem State.writeDuty_winch_zero (s : State) : s.writeDuty .winch .winch 0 =
    { s with outputs := if s.supply.latched = true then s.outputs else
      { s.outputs with winch := { s.outputs.winch with set := 0, driven := 0 } } } := by
  simp [State.writeDuty, valveOwner, Outputs.write, Output.write]

/-- The grout engine's duty 0 turns the pump off, unless a trip holds the outputs. -/
theorem State.writeDuty_pump_zero (s : State) : s.writeDuty .grout .pump 0 =
    { s with outputs := if s.supply.latched = true then s.outputs else
      { s.outputs with pump := { s.outputs.pump with set := 0, driven := 0 } } } := by
  simp [State.writeDuty, valveOwner, Outputs.write, Output.write]

/-! ## START_WINCH (R93, R94) -/

theorem decideStartWinch_accepted {ps : List Byte} {s : State} {a : Anchor} (hl : ps.length = 3)
    (hv : (positionAt ps 0).valid = true) (ha : s.register.find (positionAt ps 0) = some a)
    (hd : a.state = .declared) (hi : s.winch.state = .idle) (ht : s.supply.latched = false)
    (hc : s.clock.running = true) :
    decideStartWinch ps s = .reply .ok [] (s.startWinch (positionAt ps 0) a) := by
  simp [decideStartWinch, hl, hv, ha, hd, hi, ht, hc]

/-! ## START_GROUT (R117, R118) -/

theorem modeOfCode_eq_some {n : Nat} {mode : GroutMode} : modeOfCode n = some mode ↔
    (n = 1 ∧ mode = .primary) ∨ (n = 2 ∧ mode = .post) := by
  unfold modeOfCode
  split <;> simp_all [eq_comm]

/-- No record of a panel is in a state when the register is asked for one. -/
theorem Register.panelHolds_eq_false {r : Register} {panel : Nat} {st : AnchorState} :
    r.panelHolds panel st = false ↔ ∀ b ∈ r.records, b.pos.panel = panel → b.state ≠ st := by
  simp [Register.panelHolds]

theorem decideStartGrout_accepted {ps : List Byte} {s : State} {a : Anchor} {mode : GroutMode}
    (hl : ps.length = 4) (hm : modeOfCode (byteAt ps 3) = some mode)
    (hv : (positionAt ps 0).valid = true) (ha : s.register.find (positionAt ps 0) = some a)
    (hf : mode.fits a.state = true) (hp : mode = .post → a.groutPart.postCount < 2)
    (hi : s.grout.state = .idle) (hw : s.register.panelHolds a.pos.panel .testing = false)
    (ht : s.supply.latched = false) (hc : s.clock.running = true) :
    decideStartGrout ps s = .reply .ok [] (s.startGrout (positionAt ps 0) a mode) := by
  have hlimit : ¬ (mode = .post ∧ 2 ≤ a.groutPart.postCount) := fun h =>
    absurd (hp h.1) (Nat.not_lt.mpr h.2)
  simp [decideStartGrout, hl, hm, hv, ha, hf, hlimit, hi, hw, ht, hc]

/-- The grout engine waits for a batch with the queue empty, and for flow otherwise (R118, R126). -/
theorem State.groutWait_eq (s : State) : s.groutWait =
    { s with
      grout := { s.grout with state := if s.batches = [] then .waitBatch else .waitFlow }
      deliveries := if s.batches = [] then s.deliveries
        else s.deliveries ++ [.claim .grout s.settings.groutDemand] } := by
  unfold State.groutWait
  cases hb : s.batches <;> rfl

/-- The change of an accepted START_GROUT, in its mode (R118). -/
theorem State.startGrout_eq (p : Position) (a : Anchor) (mode : GroutMode) (s : State) :
    s.startGrout p a mode =
      { s with
        register := { s.register with
          records := s.register.records.map fun b =>
            if b.pos = p then
              { b with
                state := .grouting, interrupted := false
                work := if mode = .primary then some ⟨.groutPrimary, none, s.clock.time / 1024⟩
                  else some ⟨.groutPost, some a.state, s.clock.time / 1024⟩ }
            else b }
        grout :=
          { state := if s.batches = [] then .waitBatch else .waitFlow
            pause := none, anchor := some p, mode := some mode
            limit := some (if mode = .primary
              then (a.design.groutVolume * s.settings.overfill + 999) / 1000
              else (a.design.groutVolume * s.settings.postCap + 999) / 1000)
            injected := 0, strokes := 0, unattributed := 0, batchIds := [], extra := 0, peak := 0
            latest := s.grout.latest }
        deliveries := if s.batches = [] then s.deliveries
          else s.deliveries ++ [.claim .grout s.settings.groutDemand] } := by
  unfold State.startGrout
  rw [State.groutWait_eq]
  cases mode <;> rfl

/-! ## CONTINUE_WINCH and ABORT_WINCH (R103, R104) -/

/-- The JAM mark leaves the list when jam timing is on. -/
theorem State.stopJamTiming_eq (s : State) : s.stopJamTiming =
    { s with
      marks := if s.winch.jamTiming = true then s.marks.filter (fun m => m.name != .jam)
        else s.marks
      winch := { s.winch with jamTiming := false } } := by
  unfold State.stopJamTiming
  split
  next h => rfl
  next h =>
    have hoff : s.winch.jamTiming = false := by simpa using h
    have hw : { s.winch with jamTiming := false } = s.winch := by rw [← hoff]
    simp [hw]

theorem Anchor.placementPart_aborts (a : Anchor) :
    a.placementPart.aborts = (a.placement.map Placement.aborts).getD 0 := by
  cases h : a.placement <;> simp [Anchor.placementPart, h]

/-- CONTINUE_WINCH without parameters: its checks in order, then a new claim. -/
theorem decideContinueWinch_eq (s : State) : decideContinueWinch [] s =
    if s.winch.state ≠ .stopped then refuse .wrongState s
    else if s.supply.latched = true then refuse .tripped s
    else if s.winch.reason = some .jam ∧ s.winch.jamCount = 3 then refuse .limit s
    else .reply .ok [] s.continueWinch := rfl

/-- The change of an accepted ABORT_WINCH (R104). -/
theorem State.abortWinch_eq {s : State} {pos : Position} (h : s.winch.anchor = some pos) :
    s.abortWinch =
      { s with
        outputs := if s.supply.latched = true then s.outputs else
          { s.outputs with winch := { s.outputs.winch with set := 0, driven := 0 } }
        marks := if s.winch.jamTiming = true then s.marks.filter (fun m => m.name != .jam)
          else s.marks
        deliveries := s.deliveries ++ [.release .winch]
        register := { s.register with
          records := s.register.records.map fun b =>
            if b.pos = pos then
              if b.state = .placing then
                { b with
                  state := .declared, work := none
                  placement := some ⟨none, s.winch.jamCount,
                    satSucc 255 ((b.placement.map Placement.aborts).getD 0)⟩ }
              else b
            else b }
        winch :=
          { state := .idle, reason := none, anchor := none, slowBoundary := none
            jamCount := s.winch.jamCount, paid := 0, tension := 0, jamTiming := false } } := by
  simp only [State.abortWinch, State.writeDuty_winch_zero, State.stopJamTiming_eq,
    State.onWinchAnchor, State.releaseFlow, State.send, h, State.modifyAnchor, Register.modify,
    Anchor.placingAborted, Anchor.placementPart_aborts, Winch.letGo]

/-! ## CONTINUE_GROUT and ABORT_GROUT (R126, R127) -/

theorem decideContinueGrout_eq (s : State) : decideContinueGrout [] s =
    if s.grout.state ≠ .paused then refuse .wrongState s
    else if s.supply.latched = true then refuse .tripped s
    else .reply .ok [] (State.groutWait { s with grout := { s.grout with pause := none } }) := rfl

theorem decideAbortGrout_eq (s : State) : decideAbortGrout [] s =
    if s.grout.state = .idle then refuse .wrongState s
    else .reply .ok [] (s.endGrout .incomplete) := rfl

/-! ## The end of a grouting (R13, R114) -/

/-- A grouting succeeds as R13 says. -/
theorem groutSuccess_eq (mode : GroutMode) (o : GroutOutcome) (volume design : Nat) :
    groutSuccess mode o volume design =
      decide ((mode = .primary ∧ o = .complete) ∨
        (mode = .primary ∧ o = .refusal ∧ design * 800 ≤ volume * 1000) ∨
        (mode = .post ∧ o = .refusal)) := by
  cases mode <;> cases o <;> simp [groutSuccess]

/-- The grout part that an end writes, by the parts of the record it finds (R6). -/
theorem Anchor.groutPart_ended (a : Anchor) (r : GroutReport) (ok : Bool) :
    a.groutPart.ended r ok =
      { endTime := some r.time
        primary := if r.mode = .primary then some r.volume else a.grout.bind GroutPart.primary
        post := if r.mode = .post then some r.volume else a.grout.bind GroutPart.post
        outcome := r.outcome
        postCount := (a.grout.map GroutPart.postCount).getD 0 + (if r.mode = .post then 1 else 0)
        batchIds := if ok then r.batchIds else (a.grout.map GroutPart.batchIds).getD []
        extra := if ok then r.extra else (a.grout.map GroutPart.extra).getD 0
        unattributed := if ok then r.unattributed
          else (a.grout.map GroutPart.unattributed).getD 0 } := by
  obtain ⟨mode, _⟩ := r
  cases h : a.grout <;> cases mode <;> simp [Anchor.groutPart, GroutPart.ended, h]

/-- The state that an end leaves a GROUTING record in (R13). -/
theorem Anchor.afterGrout_eq {a : Anchor} (h : a.state = .grouting) (mode : GroutMode)
    (ok : Bool) : a.afterGrout mode ok = if ok then .grouted else if mode = .primary then .short
      else (a.work.bind Work.ret).getD .grouting := by
  cases mode <;> simp [Anchor.afterGrout, Anchor.returnState, h]

/-- What an end makes of a GROUTING record. -/
theorem Anchor.groutEnded_grouting {a : Anchor} (h : a.state = .grouting) {r : GroutReport}
    {ok : Bool} (hok : groutSuccess r.mode r.outcome r.volume a.design.groutVolume = ok) :
    a.groutEnded r =
      { a with
        state := if ok then .grouted else if r.mode = .primary then .short
          else (a.work.bind Work.ret).getD .grouting
        work := none
        grout := some (a.groutPart.ended r ok) } := by
  simp only [Anchor.groutEnded, if_pos h, hok, Anchor.afterGrout_eq h]

/-- The end of a grouting: what it writes outside the register, and the record it reports (R114). -/
theorem State.endGrout_eq {s : State} {pos : Position} {mode : GroutMode} (o : GroutOutcome)
    (ha : s.grout.anchor = some pos) (hm : s.grout.mode = some mode) :
    s.endGrout o =
      { s with
        outputs := if s.supply.latched = true then s.outputs else
          { s.outputs with pump := { s.outputs.pump with set := 0, driven := 0 } }
        marks := (s.marks.filter fun m => m.name != .coldJoint).filter fun m => m.name != .refusal
        deliveries := s.deliveries ++ [.release .grout]
        register := s.register.modify pos (Anchor.groutEnded (s.groutReport mode o))
        grout := { s.grout with state := .idle, pause := none, anchor := none }
        ports := s.ports.raise .groutEnd } := by
  simp only [State.endGrout, State.writeDuty_pump_zero, State.removeMark, State.releaseFlow,
    State.send, State.reportGrout, ha, hm, State.modifyAnchor, State.raise, State.groutReport,
    State.nowSeconds, dropMark]

end Sys2Proof.Machine

namespace Sys2Proof.Proofs

open Sys2Proof.Machine

/-- Settles O14: both starts by their decision when every check passes. -/
theorem startsTakeAnchors : Obligations.StartsTakeAnchors := by
  refine ⟨?_, ?_⟩
  · intro p form s r ps a h hl hv ha hd hi ht hc
    exact h.reply (startWinch_decided p form) (decideStartWinch_accepted hl hv ha hd hi ht hc)
  · intro p form s r ps a mode h hl hv ha hm hi hw ht hc
    obtain ⟨hcode, hfits, hposts⟩ : modeOfCode (byteAt ps 3) = some mode ∧
        mode.fits a.state = true ∧ (mode = .post → a.groutPart.postCount < 2) := by
      rcases hm with ⟨hb, rfl, hs⟩ | ⟨hb, rfl, hs, hn⟩
      · exact ⟨modeOfCode_eq_some.mpr (.inl ⟨hb, rfl⟩), by rw [hs]; rfl, by simp⟩
      · refine ⟨modeOfCode_eq_some.mpr (.inr ⟨hb, rfl⟩), ?_, fun _ => hn⟩
        rcases hs with hs | hs <;> rw [hs] <;> rfl
    refine h.reply (startGrout_decided p form) ((decideStartGrout_accepted
      (s := s.taken r.port r.code r.form) hl hcode hv ha hfits hposts hi
      (Register.panelHolds_eq_false.mpr hw) ht hc).trans ?_)
    rw [State.startGrout_eq]
    rfl

/-- Settles O15: each request by its checks in order, then by what its change makes of the state. -/
theorem continueAndAbort : Obligations.ContinueAndAbort := by
  refine ⟨⟨?_, ?_, ?_⟩, ?_, ?_⟩
  · intro p form s r h
    have hdec := decideContinueWinch_eq (s.taken r.port r.code r.form)
    split
    next hs => exact h.reply (continueWinch_decided p form) (hdec.trans (if_pos hs))
    next hs =>
      have hdec := hdec.trans (if_neg hs)
      split
      next ht => exact h.reply (continueWinch_decided p form) (hdec.trans (if_pos ht))
      next ht =>
        have hdec := hdec.trans (if_neg ht)
        split
        next hj => exact h.reply (continueWinch_decided p form) (hdec.trans (if_pos hj))
        next hj => exact h.reply (continueWinch_decided p form) (hdec.trans (if_neg hj))
  · intro p form s r h hi
    refine h.reply (abortWinch_decided p form) ?_
    simp [decideAbortWinch, hi, refuse]
  · intro p form s r pos h hi ha
    have hdec : decideAbortWinch [] (s.taken r.port r.code r.form) =
        .reply .ok [] (s.taken r.port r.code r.form).abortWinch := by
      simp [decideAbortWinch, hi]
    refine h.reply (abortWinch_decided p form) (hdec.trans ?_)
    rw [State.abortWinch_eq (show (s.taken r.port r.code r.form).winch.anchor = some pos from ha)]
    rfl
  · intro p form s r h
    have hdec := decideContinueGrout_eq (s.taken r.port r.code r.form)
    split
    next hs => exact h.reply (continueGrout_decided p form) (hdec.trans (if_pos hs))
    next hs =>
      have hdec := hdec.trans (if_neg hs)
      split
      next ht => exact h.reply (continueGrout_decided p form) (hdec.trans (if_pos ht))
      next ht =>
        have hdec := hdec.trans (if_neg ht)
        rw [State.groutWait_eq] at hdec
        exact h.reply (continueGrout_decided p form) hdec
  · intro p form s r h
    have hdec := decideAbortGrout_eq (s.taken r.port r.code r.form)
    split
    next hi => exact h.reply (abortGrout_decided p form) (hdec.trans (if_pos hi))
    next hi => exact h.reply (abortGrout_decided p form) (hdec.trans (if_neg hi))

/-- Settles O18: the record of the engine's anchor by its state, the rest by what an end writes. -/
theorem groutEnds : Obligations.GroutEnds := by
  intro o s pos mode ha hm
  rw [State.endGrout_eq o ha hm, Register.modify]
  congr 3
  funext b
  by_cases hp : b.pos = pos
  · by_cases hs : b.state = .grouting
    · rw [if_pos hp, if_pos ⟨hp, hs⟩,
        Anchor.groutEnded_grouting hs (groutSuccess_eq mode o s.grout.injected _),
        Anchor.groutPart_ended]
      rfl
    · rw [if_pos hp, if_neg (fun h => hs h.2), Anchor.groutEnded, if_neg hs]
  · rw [if_neg hp, if_neg (fun h => hp h.1)]

end Sys2Proof.Proofs
end

section
/-! SUPPORT. The stress engine: the refusals of START_TEST in their order, and the ways a test
ends. -/

namespace Sys2Proof.Machine

/-! ## Refusals in order -/

/-- Where an ordered list of checks names a refusal, a decision answers with it and changes
nothing. -/
def Refuses (s : State) (x : Option (Status × List Byte)) (d : Decision) : Prop :=
  ∀ st data, x = some (st, data) → d = .reply st data s

theorem refuses_none (s : State) (d : Decision) : Refuses s none d := fun _ _ h => by cases h

theorem refuses_some (s : State) (st : Status) (data : List Byte) :
    Refuses s (some (st, data)) (refuseWith st data s) := fun _ _ h => by cases h; rfl

/-- One more check in front of the others. -/
theorem refuses_ite {s : State} {st : Status} {data : List Byte} {c c' : Prop}
    {_ : Decidable c} {_ : Decidable c'} {x : Option (Status × List Byte)} {d : Decision}
    (hc : c ↔ c') (h : Refuses s x d) :
    Refuses s (if c then some (st, data) else x) (if c' then refuseWith st data s else d) := by
  by_cases hp : c
  · rw [if_pos hp, if_pos (hc.mp hp)]
    exact refuses_some s st data
  · rw [if_neg hp, if_neg fun h => hp (hc.mpr h)]
    exact h

/-! ## START_TEST (R134) -/

theorem decideStartTest_length {ps : List Byte} {s : State} (hl : ps.length ≠ 3) :
    decideStartTest ps s = refuse .badForm s := by
  simp [decideStartTest, hl]

theorem decideStartTest_invalid {ps : List Byte} {s : State} (hl : ps.length = 3)
    (hv : (positionAt ps 0).valid = false) : decideStartTest ps s = refuse .outOfRange s := by
  simp [decideStartTest, hl, hv]

theorem decideStartTest_noAnchor {ps : List Byte} {s : State} (hl : ps.length = 3)
    (hv : (positionAt ps 0).valid = true) (hn : s.register.find (positionAt ps 0) = none) :
    decideStartTest ps s = refuse .noAnchor s := by
  simp [decideStartTest, hl, hv, hn]

/-- The checks on the wall and the supply, in order. -/
theorem decideTestPermit_refuses (a : Anchor) (steps : List Step) (s : State) :
    Refuses s
      (if s.register.panelHolds a.pos.panel .grouting = true then some (.panelBusy, [])
      else
        match s.panelHeld a.pos.panel, s.imbalanced a.pos.panel a.design.lockLoad with
        | some q, _ => some (.panelHeld, enc8 q ++ enc8 (panelAt s.panels q).state.code)
        | none, some q => some (.imbalance,
          enc8 q ++ enc32 (s.imbalance a.pos.panel a.design.lockLoad q))
        | none, none => if s.supply.latched = true then some (.tripped, []) else none)
      (decideTestPermit a steps s) := by
  refine refuses_ite Iff.rfl ?_
  cases s.panelHeld a.pos.panel with
  | some q => exact refuses_some s _ _
  | none =>
    cases s.imbalanced a.pos.panel a.design.lockLoad with
    | some q => exact refuses_some s _ _
    | none => exact refuses_ite Iff.rfl (refuses_none s _)

/-- The checks on the engine, the journal, the clock, the cure, the profile and the jack, in order,
and those on the wall and the supply after them. -/
theorem decideStartTest_refuses {ps : List Byte} {s : State} {a : Anchor} (hl : ps.length = 3)
    (hv : (positionAt ps 0).valid = true) (ha : s.register.find (positionAt ps 0) = some a) :
    Refuses s
      (if a.state ≠ .grouted ∧ a.state ≠ .failed then some (.wrongState, [])
      else if 4 ≤ a.testPart.count then some (.limit, [])
      else if s.stress.state ≠ .idle then some (.engineBusy, [])
      else if s.journal.state = .appending then some (.journalBusy, [])
      else if s.journal.state = .fault then some (.journalFault, [])
      else if s.journal.room < 727 then some (.journalFull, enc32 s.journal.room)
      else if s.clock.running = false then some (.noTime, [])
      else
        match a.hoursToCure s.settings.curePeriod (s.clock.time / 1024),
          s.settings.profile a.design.profile with
        | some h, _ => some (.groutYoung, enc16 h)
        | none, none => some (.noProfile, enc8 a.design.profile)
        | none, some steps =>
          if s.settings.jackMax < peakPressure s.settings a.design steps then
            some (.overCapacity, enc32 (peakPressure s.settings a.design steps))
          else if s.register.panelHolds a.pos.panel .grouting = true then some (.panelBusy, [])
          else
            match s.panelHeld a.pos.panel, s.imbalanced a.pos.panel a.design.lockLoad with
            | some q, _ => some (.panelHeld, enc8 q ++ enc8 (panelAt s.panels q).state.code)
            | none, some q => some (.imbalance,
              enc8 q ++ enc32 (s.imbalance a.pos.panel a.design.lockLoad q))
            | none, none => if s.supply.latched = true then some (.tripped, []) else none)
      (decideStartTest ps s) := by
  have hvalid : ¬ (!(positionAt ps 0).valid) = true := by simp [hv]
  rw [decideStartTest, if_neg (not_not.mpr hl), if_neg hvalid, ha]
  refine refuses_ite Iff.rfl (refuses_ite Iff.rfl (refuses_ite Iff.rfl (refuses_ite Iff.rfl
    (refuses_ite Iff.rfl (refuses_ite Iff.rfl (refuses_ite (by simp) ?_))))))
  change Refuses s _ (match a.hoursToCure s.settings.curePeriod (s.clock.time / 1024) with
    | some h => refuseWith .groutYoung (enc16 h) s
    | none => decideTestProfile a s)
  cases a.hoursToCure s.settings.curePeriod (s.clock.time / 1024) with
  | some h => exact refuses_some s _ _
  | none =>
    unfold decideTestProfile
    cases s.settings.profile a.design.profile with
    | none => exact refuses_some s _ _
    | some steps => exact refuses_ite Iff.rfl (decideTestPermit_refuses a steps s)

/-! ## The jack outputs (R68, R70) -/

/-- The stress engine's duty reaches a jack output, unless a trip holds the outputs. -/
theorem State.writeDuty_jack {v : Valve} (hv : valveOwner v = .stress) (d : Nat) (s : State) :
    s.writeDuty .stress v d =
      { s with outputs := if s.supply.latched = true then s.outputs
        else s.outputs.write v (min d 1000) } := by
  simp [State.writeDuty, hv]

/-- Both jack outputs are turned off, unless a trip holds the outputs. -/
theorem State.stopJack_eq (s : State) : s.stopJack =
    { s with outputs := if s.supply.latched = true then s.outputs else
      { s.outputs with
        jackAdvance := { s.outputs.jackAdvance with set := 0, driven := 0 }
        jackRelease := { s.outputs.jackRelease with set := 0, driven := 0 } } } := by
  rw [State.stopJack, State.writeDuty_jack rfl, State.writeDuty_jack rfl]
  cases s.supply.latched <;> simp [Outputs.write, Output.write]

/-! ## The ways a test ends (R14, R16, R148, R149) -/

/-- An entry to UNLOADING: the marks dropped, the flow released, the end pending, and the jack
released unless the engine waits for the end of a trip. -/
theorem State.enterUnloading_eq (code : TestCode) (s : State) : s.enterUnloading code =
    { s with
      marks := s.marks.filter fun m => !m.name.ofStress
      deliveries := s.deliveries ++ [.release .stress]
      stress := { s.stress with
        state := .unloading, makingUp := false, suspension := none, pendingEnd := some code }
      outputs := if s.supply.latched = true then s.outputs
        else if s.stress.tripWait = true then s.outputs.write .jackAdvance 0
        else (s.outputs.write .jackAdvance 0).write .jackRelease
          (min s.settings.rampDuty 1000) } := by
  simp only [State.enterUnloading, State.removeStressMarks, State.releaseFlow, State.send,
    State.writeDuty_jack (v := .jackAdvance) rfl, State.writeDuty_jack (v := .jackRelease) rfl]
  cases s.stress.tripWait <;> cases s.supply.latched <;> rfl

/-- What an abort makes of a TESTING record, by the parts it finds. -/
theorem Anchor.testAborted_testing {a : Anchor} (h : a.state = .testing) (code : TestCode)
    (counted : Bool) (creep : Option Int) : a.testAborted code counted creep =
      { a with
        state := (a.work.bind Work.ret).getD .testing
        work := none
        test := some
          { count := (a.test.map TestPart.count).getD 0 + (if counted = true then 1 else 0)
            last := code, creep := creep, lApp := none
            residual := a.test.bind TestPart.residual
            index := a.test.bind TestPart.index } } := by
  cases ht : a.test <;> cases counted <;>
    simp [Anchor.testAborted, Anchor.returnState, Anchor.testPart, h, ht]

/-- The end of an aborted test: what it writes outside the register, and the record it tells. -/
theorem State.endTest_abort {code : TestCode} {s : State} {pos : Position}
    (hc : code.isAbort = true) (ha : s.stress.anchor = some pos) (counted : Bool) :
    s.endTest code counted =
      { s with
        outputs := if s.supply.latched = true then s.outputs else
          { s.outputs with
            jackAdvance := { s.outputs.jackAdvance with set := 0, driven := 0 }
            jackRelease := { s.outputs.jackRelease with set := 0, driven := 0 } }
        register := s.register.modify pos (Anchor.testAborted code counted s.stress.creepFigure)
        stress := s.stress.letGo
        ports := s.ports.raise .testEnd } := by
  simp only [State.endTest, State.stopJack_eq, State.abortedEnd, hc, ha, if_true,
    State.modifyAnchor, State.raise]

theorem State.testedAnchor_eq_some {s : State} {pos : Position} {a : Anchor}
    (hp : s.stress.anchor = some pos) (ha : s.register.find pos = some a)
    (ht : a.state = .testing) : s.testedAnchor = some a := by
  simp [State.testedAnchor, hp, ha, ht]

/-- The evaluated-end transition: the record, the slot and the append in one change (R16). -/
theorem State.evaluatedEnd_eq {result : TestCode} {s : State} {a : Anchor} {record : List Byte}
    (ha : s.testedAnchor = some a)
    (hr : certificateRecord s.stress a result (a.testPart.count + 1) s.nowSeconds = record) :
    s.evaluatedEnd result =
      { s with
        register := { s.register.modify a.pos
            (Anchor.testEvaluated result s.stress.creepFigure s.stress.lApp) with
          slot := some ⟨record, a.pos, a.testPart.count + 1, result, s.stress.lock.residual⟩ }
        journal := s.journal.ask .certificate record .register } := by
  simp only [State.evaluatedEnd, ha, hr]

/-- The end of an evaluated test: what the transition writes, the outputs off, the anchor let go. -/
theorem State.endTest_evaluated {result : TestCode} {s : State} {pos : Position} {a : Anchor}
    {record : List Byte} (hc : result.isAbort = false) (hp : s.stress.anchor = some pos)
    (ha : s.register.find pos = some a) (ht : a.state = .testing)
    (hr : certificateRecord s.stress a result (a.testPart.count + 1) s.nowSeconds = record)
    (counted : Bool) :
    s.endTest result counted =
      { s with
        outputs := if s.supply.latched = true then s.outputs else
          { s.outputs with
            jackAdvance := { s.outputs.jackAdvance with set := 0, driven := 0 }
            jackRelease := { s.outputs.jackRelease with set := 0, driven := 0 } }
        register := { s.register.modify pos
            (Anchor.testEvaluated result s.stress.creepFigure s.stress.lApp) with
          slot := some ⟨record, pos, a.testPart.count + 1, result, s.stress.lock.residual⟩ }
        journal := s.journal.ask .certificate record .register
        stress := s.stress.letGo
        ports := s.ports.raise .testEnd } := by
  have hend := State.evaluatedEnd_eq (s := s.stopJack) (result := result)
    (State.testedAnchor_eq_some hp ha ht) hr
  have hpos : a.pos = pos := Register.find_pos ha
  simp only [State.endTest, hc, Bool.false_eq_true, if_false, hend, hpos, State.raise]
  simp only [State.stopJack_eq]

theorem Journal.ask_ready {j : Journal} (h : j.state = .ready) (kind : EntryKind)
    (record : List Byte) (asker : Asker) : j.ask kind record asker =
      { j with state := .appending, inFlight := some ⟨kind, record, asker⟩ } := if_pos h

/-- The test part that an evaluated end writes, by the part it finds (R16). -/
theorem Anchor.testEvaluated_eq (a : Anchor) (result : TestCode) (creep : Option Int)
    (lApp : Option Nat) : a.testEvaluated result creep lApp =
      { a with
        state := .recording
        work := none
        test := some
          { count := (a.test.map TestPart.count).getD 0 + 1
            last := result, creep := creep, lApp := lApp
            residual := a.test.bind TestPart.residual, index := none } } := by
  cases ht : a.test <;> simp [Anchor.testEvaluated, Anchor.testPart, ht]

end Sys2Proof.Machine

namespace Sys2Proof.Proofs

open Sys2Proof.Machine

/-- Settles O32: each check by its place in the order, with the data of its refusal. -/
theorem startTestRefusesInOrder : Obligations.StartTestRefusesInOrder := by
  intro p form s r ps h
  have hdec := startTest_decided p form
  refine ⟨fun hl => h.reply hdec (decideStartTest_length hl),
    fun hl hv => h.reply hdec (decideStartTest_invalid hl hv),
    fun hl hv hn => h.reply hdec (decideStartTest_noAnchor hl hv hn),
    fun a st data hl hv ha hx => h.reply hdec ?_⟩
  exact decideStartTest_refuses (s := s.taken r.port r.code r.form) hl hv ha st data hx

/-- Settles O33: UNLOADING, the abort and the aborted end by what they write, ABORT_TEST by the
engine's state. -/
theorem testEndsAndAborts : Obligations.TestEndsAndAborts := by
  refine ⟨State.enterUnloading_eq, fun code s => rfl, ?_, ?_⟩
  · intro code counted s pos hc ha
    rw [State.endTest_abort hc ha, Register.modify]
    congr 3
    funext b
    by_cases hp : b.pos = pos
    · by_cases hs : b.state = .testing
      · rw [if_pos hp, if_pos ⟨hp, hs⟩, Anchor.testAborted_testing hs]
      · rw [if_pos hp, if_neg (fun h => hs h.2), Anchor.testAborted, if_neg hs]
    · rw [if_neg hp, if_neg (fun h => hp h.1)]
  · intro p form s r h
    have hdec := abortTest_decided p form
    cases hs : s.stress.state with
    | unloading =>
      cases he : s.stress.pendingEnd with
      | none => exact h.reply hdec (by simp [decideAbortTest, hs, he, refuse])
      | some code =>
        cases hc : code.isAbort <;> simp only [Option.any_some, hc] <;>
          exact h.reply hdec (by simp [decideAbortTest, hs, he, hc, refuse])
    | _ => exact h.reply hdec (by simp [decideAbortTest, hs, refuse])

/-- Settles O34: the end of an evaluated test, with the append taken by a READY journal. -/
theorem evaluatedEnds : Obligations.EvaluatedEnds := by
  intro result counted s pos a record hc hp ha ht hj hr
  have hcount : (a.test.map TestPart.count).getD 0 = a.testPart.count :=
    (Anchor.testPart_count a).symm
  rw [hcount] at hr ⊢
  rw [State.endTest_evaluated hc hp ha ht hr.symm, Journal.ask_ready hj, Register.modify]
  simp only [Anchor.testEvaluated_eq]
  rfl

end Sys2Proof.Proofs
end

section
/-! SUPPORT. The journal: what a programming leaves, how an append ends, and what its asker is
told. -/

namespace Sys2Proof.Machine

/-! ## Programming (R171, R172) -/

theorem fitBytes_of_length {n : Nat} {bs : List Byte} (h : bs.length = n) : fitBytes n bs = bs := by
  rw [fitBytes, List.take_append_of_le_length (Nat.le_of_eq h.symm)]
  exact List.take_of_length_le (Nat.le_of_eq h)

/-- A programming without a readback leaves what was programmed. -/
@[simp] theorem left_none (bs : List Byte) : left bs none = bs := fitBytes_of_length rfl

/-- A readback of the length programmed is what was left. -/
theorem left_some {bs seen : List Byte} (h : seen.length = bs.length) : left bs (some seen) = seen :=
  fitBytes_of_length h

@[simp] theorem entryBytes_length (kind : EntryKind) (start : Nat) (range : List Byte) :
    (entryBytes kind start range).length = 8 := rfl

/-- An entry that reads back as programmed is counted. -/
theorem Journal.putEntry_none (kind : EntryKind) (range : List Byte) (j : Journal) :
    j.putEntry kind range none =
      (Journal.countEntry kind range.length
        { j with
          array := j.array.writeBytes (entryOffset j.count)
            (entryBytes kind j.appendPoint range) }, true) := by
  simp [Journal.putEntry]

/-- An entry that reads back otherwise is not counted. -/
theorem Journal.putEntry_wrong {kind : EntryKind} {range seen : List Byte} {j : Journal}
    (hl : seen.length = 8) (hne : seen ≠ entryBytes kind j.appendPoint range) :
    j.putEntry kind range (some seen) =
      ({ j with array := j.array.writeBytes (entryOffset j.count) seen }, false) := by
  have hleft : left (entryBytes kind j.appendPoint range) (some seen) = seen :=
    left_some (hl.trans (entryBytes_length _ _ _).symm)
  simp [Journal.putEntry, hleft, hne]

/-- With an entry counted the room ends at the last of them (R170). -/
theorem Journal.room_of_count {j : Journal} {n : Nat} (h : j.count = n + 1) :
    j.room = entryOffset n - j.appendPoint := by
  simp [Journal.room, Journal.lowestEntry, h]

theorem Journal.fits_iff {record : List Byte} {j : Journal} :
    j.fits record = true ↔ record.length + 8 ≤ j.room := by simp [Journal.fits]

/-! ## How an append ends (R171, R172, R175) -/

/-- A record and its entry programmed at the append point. -/
def Journal.stored (kind : EntryKind) (record : List Byte) (j : Journal) : Journal :=
  Journal.countEntry kind record.length
    { j with
      array := (j.array.writeBytes j.appendPoint record).writeBytes (entryOffset j.count)
        (entryBytes kind j.appendPoint record) }

theorem Journal.stored_count (kind : EntryKind) (record : List Byte) (j : Journal) :
    (j.stored kind record).count = j.count + 1 := rfl

theorem Journal.stored_appendPoint (kind : EntryKind) (record : List Byte) (j : Journal) :
    (j.stored kind record).appendPoint = align16 (j.appendPoint + record.length) := rfl

/-- Whether a record and its entry fit behind a range just counted. -/
theorem Journal.stored_fits (kind : EntryKind) (record : List Byte) (j : Journal) (n : Nat) :
    n + 8 ≤ (j.stored kind record).room ↔
      align16 (j.appendPoint + record.length) + n + 8 ≤ entryOffset j.count := by
  rw [Journal.room_of_count (j.stored_count kind record), j.stored_appendPoint]
  omega

/-- A record and an entry that both read back as programmed. -/
theorem Journal.putRecord_putEntry (kind : EntryKind) (record : List Byte) (j : Journal) :
    (j.putRecord record none).putEntry kind record none = (j.stored kind record, true) := by
  rw [Journal.putEntry_none]
  simp [Journal.putRecord, Journal.stored]

theorem Journal.append_noRoom {a : Append} {j : Journal} (h : j.room < a.record.length + 8)
    (run : AppendRun) : j.append a run = ⟨j, none⟩ := by
  simp [Journal.append, Journal.fits, Nat.not_le.mpr h]

theorem Journal.append_stored {a : Append} {run : AppendRun} {j : Journal}
    (hr : a.record.length + 8 ≤ j.room) (h1 : run.record = none) (h2 : run.entry = none) :
    j.append a run = ⟨j.stored a.kind a.record, some j.count⟩ := by
  simp [Journal.append, Journal.fits_iff.mpr hr, h1, h2, Journal.putRecord_putEntry]

/-- The record is right, and its entry reads back wrong. -/
theorem Journal.append_wrongEntry {a : Append} {run : AppendRun} {j : Journal} {seen : List Byte}
    (hr : a.record.length + 8 ≤ j.room) (h1 : run.record = none) (h2 : run.entry = some seen)
    (hl : seen.length = 8) (hne : seen ≠ entryBytes a.kind j.appendPoint a.record) :
    j.append a run =
      ⟨{ j with
          array := (j.array.writeBytes j.appendPoint a.record).writeBytes
            (entryOffset j.count) seen }, none⟩ := by
  have hput := Journal.putEntry_wrong (kind := a.kind) (range := a.record)
    (j := j.putRecord a.record none) hl hne
  simp only [Journal.append, Journal.fits_iff.mpr hr, Bool.not_true, Bool.false_eq_true, if_false,
    h1, left_none, if_true, h2, hput]
  simp [Journal.putRecord]

/-- The record reads back wrong: a SPOILED entry for what was left, and one retry where there is
room. -/
theorem Journal.append_spoiled {a : Append} {run : AppendRun} {j : Journal} {seen : List Byte}
    (hr : a.record.length + 8 ≤ j.room) (h1 : run.record = some seen)
    (hl : seen.length = a.record.length) (hne : seen ≠ a.record) (h2 : run.entry = none) :
    j.append a run =
      if a.record.length + 8 ≤ (j.stored .spoiled seen).room then
        (j.stored .spoiled seen).retry a run
      else ⟨j.stored .spoiled seen, none⟩ := by
  have hput : (j.putRecord a.record (some seen)).putEntry .spoiled seen none =
      (j.stored .spoiled seen, true) := by
    have hp : j.putRecord a.record (some seen) = j.putRecord seen none := by
      simp [Journal.putRecord, left_some hl]
    rw [hp, Journal.putRecord_putEntry]
  simp only [Journal.append, Journal.fits_iff.mpr hr, Bool.not_true, Bool.false_eq_true, if_false,
    h1, left_some hl, hne, h2, hput, Bool.true_and, Journal.fits_iff]

theorem Journal.retry_stored {a : Append} {run : AppendRun} (h1 : run.retryRecord = none)
    (h2 : run.retryEntry = none) (j : Journal) :
    j.retry a run = ⟨j.stored a.kind a.record, some j.count⟩ := by
  simp [Journal.retry, h1, h2, Journal.putRecord_putEntry]

theorem Journal.retry_wrong {a : Append} {run : AppendRun} {seen : List Byte}
    (h1 : run.retryRecord = some seen) (hl : seen.length = a.record.length) (hne : seen ≠ a.record)
    (j : Journal) :
    j.retry a run = ⟨{ j with array := j.array.writeBytes j.appendPoint seen }, none⟩ := by
  simp [Journal.retry, h1, left_some hl, hne, Journal.putRecord]

/-! ## The completion of an append -/

theorem exec_appendCompletion {run : AppendRun} {s : State} (hp : s.powered = true)
    (hd : s.noneDue = true) : exec (.appendCompletion run) s = .next (s.completeAppend run) := by
  show onAppendCompletion run s.expireDue = _
  rw [State.expireDue_noneDue hd, onAppendCompletion, State.whenPowered_pos hp]

/-- An append that ends without an entry is a FAULT, and the asker is told. -/
theorem State.completeAppend_fault {s : State} {a : Append} {run : AppendRun} {j : Journal}
    (ha : s.journal.inFlight = some a) (he : s.journal.append a run = ⟨j, none⟩) :
    s.completeAppend run = State.tellAsker a.asker none
      { s with
        journal := { j with state := .fault, inFlight := none }
        ports := s.ports.raise .journalFault } := by
  simp [State.completeAppend, ha, he, AppendEnd.settle, State.journalEvents, State.raise]

/-- An append that ends with an entry leaves the journal READY, and the asker is told its number. -/
theorem State.completeAppend_ready {s : State} {a : Append} {run : AppendRun} {j : Journal} {k : Nat}
    (ha : s.journal.inFlight = some a) (he : s.journal.append a run = ⟨j, some k⟩)
    (hk : j.count = k + 1) :
    s.completeAppend run = State.tellAsker a.asker (some k)
      { s with
        journal := { j with state := .ready, inFlight := none }
        ports := if entryOffset k - j.appendPoint < 16384
          then s.ports.raise .journalLow else s.ports } := by
  have hroom : Journal.room { j with state := .ready, inFlight := none } =
      entryOffset k - j.appendPoint := Journal.room_of_count hk
  simp only [State.completeAppend, ha, he, AppendEnd.settle, State.journalEvents,
    Option.isSome_some, if_true, hroom, Config.lowRoom, reduceCtorEq, if_false]
  split <;> rfl

/-! ## The completion of a certificate (R17, R84) -/

theorem TestCode.locks_iff (c : TestCode) :
    c.locks = true ↔ c = .accepted ∨ c = .lockoffDeviation := by
  cases c <;> simp [TestCode.locks]

/-- A panel's record changed, by its place in the table (R74). -/
theorem State.modifyPanel_eq {s : State} {n : Nat} {x : Panel} (hn : 1 ≤ n)
    (hx : s.panels[n - 1]? = some x) (f : Panel → Panel) :
    s.modifyPanel n f = { s with panels := s.panels.set (n - 1) (f x) } := by
  have hne : n ≠ 0 := Nat.ne_of_gt hn
  simp [State.modifyPanel, putPanel, panelAt, hx, hne]

/-- The completion of the slot's certificate: the record settled, the slot emptied, the panel's sum,
and RECORD_STORED. -/
theorem State.completeCertificate_eq {s : State} {c : PendingCertificate} {x : Panel}
    (hc : s.register.slot = some c) (hn : 1 ≤ c.pos.panel)
    (hx : s.panels[c.pos.panel - 1]? = some x) (index : Option Nat) :
    s.completeCertificate index =
      { s with
        register := { s.register.modify c.pos (Anchor.certified c index) with slot := none }
        panels := if c.result = .accepted ∨ c.result = .lockoffDeviation then
            s.panels.set (c.pos.panel - 1) { x with lockedSum := x.lockedSum + c.residual.getD 0 }
          else s.panels
        ports := if index = none then s.ports else s.ports.raise .recordStored } := by
  have hadd : ∀ t : State, t.panels = s.panels → t.addLocked c.pos.panel (c.residual.getD 0) =
      { t with
        panels := s.panels.set (c.pos.panel - 1)
          { x with lockedSum := x.lockedSum + c.residual.getD 0 } } := fun t ht => by
    rw [State.addLocked, State.modifyPanel_eq hn (by rw [ht]; exact hx), ht]
  simp only [State.completeCertificate, hc, ← TestCode.locks_iff]
  cases c.result.locks <;> cases index <;> simp [hadd, State.raise]

/-- What the completion makes of the record of the slot's position. -/
theorem Anchor.certified_eq (c : PendingCertificate) (index : Option Nat) (a : Anchor) :
    (if a.pos = c.pos then a.certified c index else a) =
      if a.pos = c.pos ∧ a.state = .recording then
        { a with
          state := if c.result = .accepted ∨ c.result = .lockoffDeviation then .locked else .failed
          test := a.test.map fun t => { t with
            index := index
            residual := if c.result = .accepted ∨ c.result = .lockoffDeviation
              then c.residual else t.residual } }
      else a := by
  by_cases hp : a.pos = c.pos <;> by_cases hs : a.state = .recording <;>
    simp [Anchor.certified, hp, hs, TestCode.locks_iff]

/-! ## The completion of a commit (R180) -/

/-- With no claim and no release in flight nothing arrives. -/
theorem State.arrivals_none {s : State} (h : ∀ d ∈ s.deliveries, d.toArbiter = false) :
    s.arrivals = s := by
  have hin : s.deliveries.filter Delivery.toArbiter = [] := by simpa using h
  have hout : (s.deliveries.filter fun d => !d.toArbiter) = s.deliveries := by simpa using h
  simp only [State.arrivals, hin, hout, List.foldl_nil]

end Sys2Proof.Machine

namespace Sys2Proof.Proofs

open Sys2Proof.Machine

/-- Settles O45: the journal by how its append ends, the asker by what it is told. -/
theorem appendsComplete : Obligations.AppendsComplete := by
  refine ⟨?_, ?_, ?_, ?_⟩
  · intro run s a j hp hd ha hj
    rw [exec_appendCompletion hp hd]
    refine congrArg Host.Outcome.next (State.completeAppend_fault ha ?_)
    rcases hj with ⟨hr, rfl⟩ | ⟨hr, h1, bs, hl, h2, hne, rfl⟩ |
      ⟨hr, h2, bs, retry, hl, h1, hne, hrl, h3, hrne, rfl⟩
    · exact Journal.append_noRoom hr run
    · exact Journal.append_wrongEntry hr h1 h2 hl hne
    · rw [Journal.append_spoiled hr h1 hl hne h2, Journal.retry_wrong h3 hrl hrne]
      simp only [Journal.stored_fits, hl]
      split <;> simp [Journal.stored, Journal.countEntry, hl]
  · intro run s a j hp hd ha hr h3 h2 h4 hj
    rw [exec_appendCompletion hp hd]
    rcases hj with ⟨h1, rfl⟩ | ⟨bs, hl, h1, hne, hfit, rfl⟩
    · exact congrArg Host.Outcome.next
        (State.completeAppend_ready ha (Journal.append_stored hr h1 h2) rfl)
    · refine congrArg Host.Outcome.next
        (State.completeAppend_ready (k := s.journal.count + 1) ha ?_ rfl)
      have hroom := (Journal.stored_fits .spoiled bs s.journal a.record.length).mpr (by rwa [hl])
      rw [Journal.append_spoiled hr h1 hl hne h2, if_pos hroom, Journal.retry_stored h3 h4]
      cases a.kind <;> simp [Journal.stored, Journal.countEntry, hl]
  · intro s c index x hc hn hx
    show s.completeCertificate index = _
    rw [State.completeCertificate_eq hc hn hx, Register.modify]
    simp only [Anchor.certified_eq]
  · intro s p
    refine ⟨rfl, State.arrivals_none, fun k x u hu hx => ?_⟩
    subst hu
    show State.answer p .ok (enc16 k) s.arrivals.bringInForce = _
    rw [State.bringInForce, hx]

end Sys2Proof.Proofs
end

section
/-! SUPPORT. Start-up and power: what a start-up and a power loss leave of the journal, and the end of
the start-up's work. -/

namespace Sys2Proof.Machine

/-! ## The journal's work cut short (log entry 9) -/

theorem Journal.cutAppend_zero (a : Append) (run : AppendRun) (j : Journal) :
    j.cutAppend 0 a run = j.array := by
  unfold Journal.cutAppend
  split <;> rfl

/-- Nothing is cut short before the first programming. -/
theorem Journal.cut_zero (run : AppendRun) (j : Journal) : j.cut 0 run = j := by
  unfold Journal.cut
  split
  · exact if_pos rfl
  · rw [Journal.cutAppend_zero]
  · rfl

/-- A journal that neither scans nor appends has no work to be cut short. -/
theorem Journal.cut_idle {j : Journal} (hs : j.state ≠ .scanning) (hf : j.inFlight = none)
    (phases : Nat) (run : AppendRun) : j.cut phases run = j := by
  unfold Journal.cut
  split
  next h => exact absurd h hs
  next hsome _ => rw [hf] at hsome; cases hsome
  next => rfl

/-- An append programs no header. -/
theorem Journal.cut_header {j : Journal} (hs : j.state ≠ .scanning) (phases : Nat)
    (run : AppendRun) : (j.cut phases run).header = j.header := by
  unfold Journal.cut
  split
  next h => exact absurd h hs
  next => rfl
  next => rfl

/-! ## START_UP and POWER_LOSS -/

theorem exec_startUp {s : State} (hd : s.noneDue = true) (cause : StartCause) (pins : StartPins)
    (phases : Nat) (run : AppendRun) :
    exec (.startUp cause pins phases run) s = onStartUp cause pins phases run s := by
  show onStartUp cause pins phases run s.expireDue = _
  rw [State.expireDue_noneDue hd]

theorem exec_powerLoss {s : State} (hp : s.powered = true) (hd : s.noneDue = true) (phases : Nat)
    (run : AppendRun) : exec (.powerLoss phases run) s =
      .next { s.restart unpoweredPins (fun _ => .disabled) phases run with powered := false } := by
  show onPowerLoss phases run s.expireDue = _
  rw [State.expireDue_noneDue hd, onPowerLoss, State.whenPowered_pos hp]

/-! ## The settings found (R174) -/

theorem Journal.foundSettings_fault {j : Journal} (h : j.state = .fault) :
    j.foundSettings = .default := by
  simp [Journal.foundSettings, h]

/-! ## The fix-up (R25, R26) -/

/-- The fix-up makes no record RECORDING that was not, if none returns to that state. -/
theorem Anchor.fixUp_not_recording {a : Anchor} (h : a.state ≠ .recording)
    (hr : a.returnState ≠ .recording) (time : Option Nat) : (a.fixUp time).state ≠ .recording := by
  unfold Anchor.fixUp
  repeat' split
  all_goals first | exact h | exact hr | simp

theorem Anchor.fixUp_recording {a : Anchor} (h : a.state = .recording) (time : Option Nat) :
    a.fixUp time = a := by
  simp [Anchor.fixUp, h]

theorem Register.recording_eq_false {r : Register} :
    r.recording = false ↔ ∀ a ∈ r.records, a.state ≠ .recording := by
  simp [Register.recording]

/-- Without a RECORDING anchor the slot is emptied. -/
theorem State.fixUpSlot_none {s : State} (h : s.register.recording = false) :
    s.fixUpSlot = { s with register := { s.register with slot := none } } := by
  simp [State.fixUpSlot, h]

/-- With a RECORDING anchor the slot's certificate is settled. -/
theorem State.fixUpSlot_some {s : State} {a : Anchor} {c : PendingCertificate}
    (ha : a ∈ s.register.records) (hs : a.state = .recording) (hc : s.register.slot = some c) :
    s.fixUpSlot = s.settleSlot c := by
  have hr : s.register.recording = true := by
    simp only [Register.recording, List.any_eq_true, beq_iff_eq]
    exact ⟨a, ha, hs⟩
  simp [State.fixUpSlot, hr, hc]

theorem Journal.written_eq_some {j : Journal} {c : PendingCertificate} {k : Nat}
    (hl : j.lastCert = some k) (hn : j.names (j.array.entry k) c = true) :
    j.written c = some k := by
  simp [Journal.written, hl, hn]

theorem Journal.written_eq_none {j : Journal} {c : PendingCertificate}
    (h : ∀ k, j.lastCert = some k → j.names (j.array.entry k) c = false) : j.written c = none := by
  unfold Journal.written
  split
  next k hk => simp [h k hk]
  next => rfl

theorem State.completeCertificate_journal (i : Option Nat) (s : State) :
    (s.completeCertificate i).journal = s.journal := by
  unfold State.completeCertificate
  simp only []
  repeat' split
  all_goals rfl

theorem State.completeCertificate_register {s : State} {c : PendingCertificate}
    (h : s.register.slot = some c) (i : Option Nat) :
    (s.completeCertificate i).register =
      { s.register.modify c.pos (Anchor.certified c i) with slot := none } := by
  simp only [State.completeCertificate, h]
  repeat' split
  all_goals rfl

/-- The completion leaves the record of the slot's position certified. -/
theorem State.mem_completeCertificate {s : State} {c : PendingCertificate} {a : Anchor}
    (h : s.register.slot = some c) (ha : a ∈ s.register.records) (hp : a.pos = c.pos)
    (i : Option Nat) : a.certified c i ∈ (s.completeCertificate i).register.records := by
  rw [State.completeCertificate_register h]
  exact List.mem_map.mpr ⟨a, ha, if_pos hp⟩

/-! ## The locked sums (R84, R85) -/

/-- The total of a panel's LOCKED residuals, as a sum over its LOCKED records. -/
theorem lockedTotal_eq (panel : Nat) (records : List Anchor) :
    lockedTotal panel records =
      ((records.filter fun a => a.state == .locked && a.pos.panel == panel).map fun a =>
        (a.testPart.residual).getD 0).sum := by
  unfold lockedTotal
  induction records with
  | nil => rfl
  | cons a rest ih =>
    have hres : (a.test.bind TestPart.residual).getD 0 = (a.testPart.residual).getD 0 := by
      cases ht : a.test <;> simp [Anchor.testPart, ht]
    rw [List.map_cons, List.sum_cons, ih, List.filter_cons]
    by_cases hl : a.state = .locked <;> by_cases hp : a.pos.panel = panel <;>
      simp [Anchor.lockedIn, hl, hp, hres]

theorem recomputeFrom_getElem? (records : List Anchor) {ps : List Panel} {i : Nat} {x : Panel}
    (h : ps[i]? = some x) (n : Nat) :
    (recomputeFrom records n ps)[i]? =
      some { x with lockedSum := lockedTotal (n + i) records } := by
  induction ps generalizing i n with
  | nil => simp at h
  | cons y rest ih =>
    cases i with
    | zero =>
      rw [List.getElem?_cons_zero, Option.some.injEq] at h
      subst h
      rfl
    | succ i =>
      rw [List.getElem?_cons_succ] at h
      rw [recomputeFrom, List.getElem?_cons_succ, ih h]
      congr 3
      omega

/-! ## START_UP_SCAN_DONE (R184) -/

theorem onStartUpScanDone_idle {s : State}
    (h : s.powered = false ∨ s.ready = true ∨ s.journal.state ≠ .scanning) (run : ScanRun) :
    onStartUpScanDone run s = .next s := by
  have hc : (!s.powered || s.ready || s.journal.state != .scanning) = true := by
    simpa [or_assoc] using h
  rw [onStartUpScanDone, if_pos hc]

theorem exec_startUpScanDone {s : State} (hp : s.powered = true) (hd : s.noneDue = true)
    (hr : s.ready = false) (hs : s.journal.state = .scanning) (run : ScanRun) :
    exec (.startUpScanDone run) s = .next (s.finishStartUp run) := by
  show onStartUpScanDone run s.expireDue = _
  simp [State.expireDue_noneDue hd, onStartUpScanDone, hp, hr, hs]

/-- The end of the start-up's work when nothing is RECORDING after the fix-up. -/
theorem State.finishStartUp_none {s : State} (run : ScanRun)
    (h : ∀ a ∈ s.register.records, a.state ≠ .recording ∧ a.returnState ≠ .recording) :
    s.finishStartUp run =
      { s.scanJournal run with
        register := ⟨s.register.marker, s.register.records.map (Anchor.fixUp s.startUpTime), none⟩
        panels := recomputeFrom (s.register.records.map (Anchor.fixUp s.startUpTime)) 1 s.panels
        ready := true } := by
  have hnone : ((s.scanJournal run).fixUpRecords).register.recording = false := by
    refine Register.recording_eq_false.mpr fun b hb => ?_
    obtain ⟨a, ha, rfl⟩ := List.mem_map.mp hb
    rw [State.scanJournal_register] at ha
    exact Anchor.fixUp_not_recording (h a ha).1 (h a ha).2 _
  rw [State.finishStartUp, State.fixUpSlot_none hnone, State.scanJournal_eq]
  rfl

/-- The scan made and every record fixed up, before the slot is settled. -/
def State.fixedUp (run : ScanRun) (s : State) : State := (s.scanJournal run).fixUpRecords

theorem State.fixedUp_journal (run : ScanRun) (s : State) :
    (s.fixedUp run).journal = (s.journal.startScan run).1 := by
  rw [State.fixedUp, State.scanJournal_eq]
  rfl

theorem State.fixedUp_slot (run : ScanRun) (s : State) :
    (s.fixedUp run).register.slot = s.register.slot := by
  rw [State.fixedUp, State.scanJournal_eq]
  rfl

/-- A RECORDING record stands unchanged after the fix-up. -/
theorem State.mem_fixedUp {s : State} {a : Anchor} (run : ScanRun) (ha : a ∈ s.register.records)
    (hs : a.state = .recording) : a ∈ (s.fixedUp run).register.records := by
  rw [State.fixedUp, State.scanJournal_eq]
  exact List.mem_map.mpr ⟨a, ha, Anchor.fixUp_recording hs _⟩

/-- The end of the start-up's work with a RECORDING anchor: the journal and the register are those
that the settled slot leaves. -/
theorem State.finishStartUp_recording {s : State} {a : Anchor} {c : PendingCertificate}
    (run : ScanRun) (ha : a ∈ s.register.records) (hs : a.state = .recording)
    (hc : s.register.slot = some c) :
    (s.finishStartUp run).journal = ((s.fixedUp run).settleSlot c).journal ∧
      (s.finishStartUp run).register = ((s.fixedUp run).settleSlot c).register := by
  have hslot := State.fixUpSlot_some (State.mem_fixedUp run ha hs) hs
    ((State.fixedUp_slot run s).trans hc)
  have hjournal : (s.fixedUp run).fixUpSlot.journal = _ := congrArg State.journal hslot
  have hregister : (s.fixedUp run).fixUpSlot.register = _ := congrArg State.register hslot
  exact ⟨hjournal, hregister⟩

/-- The slot's certificate stands in the journal: its completion is made up for (R26). -/
theorem State.settleSlot_written {s : State} {c : PendingCertificate} {k : Nat}
    (h : s.journal.written c = some k) : s.settleSlot c = s.completeCertificate (some k) := by
  simp only [State.settleSlot, h]

/-- In FAULT a certificate that is not in the journal is completed without an index (R26). -/
theorem State.settleSlot_fault {s : State} {c : PendingCertificate}
    (h : s.journal.written c = none) (hf : s.journal.state = .fault) :
    s.settleSlot c = s.completeCertificate none := by
  simp only [State.settleSlot, h, hf, if_true]

/-- In READY a certificate that is not in the journal is appended (R26). -/
theorem State.settleSlot_ready {s : State} {c : PendingCertificate}
    (h : s.journal.written c = none) (hr : s.journal.state = .ready) :
    s.settleSlot c =
      { s with
        journal := { s.journal with
          state := .appending, inFlight := some ⟨.certificate, c.record, .register⟩ } } := by
  simp only [State.settleSlot, h, hr, reduceCtorEq, if_false, Journal.ask_ready hr]

/-- Where the slot is settled by a completion, the journal stays as scanned, the slot is emptied and
the RECORDING record is certified. -/
theorem State.finishStartUp_certified {s : State} {a : Anchor} {c : PendingCertificate}
    {run : ScanRun} {i : Option Nat} (ha : a ∈ s.register.records) (hs : a.state = .recording)
    (hp : a.pos = c.pos) (hc : s.register.slot = some c)
    (h : (s.fixedUp run).settleSlot c = (s.fixedUp run).completeCertificate i) :
    (s.finishStartUp run).journal = (s.journal.startScan run).1 ∧
      (s.finishStartUp run).register.slot = none ∧
      a.certified c i ∈ (s.finishStartUp run).register.records := by
  obtain ⟨hjournal, hregister⟩ := State.finishStartUp_recording run ha hs hc
  have hslot : (s.fixedUp run).register.slot = some c := (State.fixedUp_slot run s).trans hc
  rw [hjournal, hregister, h, State.completeCertificate_journal, State.fixedUp_journal]
  refine ⟨rfl, ?_, State.mem_completeCertificate hslot (State.mem_fixedUp run ha hs) hp i⟩
  rw [State.completeCertificate_register hslot]

end Sys2Proof.Machine

namespace Sys2Proof.Proofs

open Sys2Proof.Machine

/-- Settles O51: the array and the header are those that the journal's cut work leaves. -/
theorem startUpAndPowerLoss : Obligations.StartUpAndPowerLoss := by
  refine ⟨?_, ?_, ?_, ?_⟩
  · intro pins phases run s hp
    show onStartUp .line pins phases run s.expireDue = _
    rw [State.expireDue_unpowered hp]
    simp [onStartUp, hp]
  · intro cause pins phases run s hd hpc
    have hruns : ¬ ((!s.powered) = true ∧ cause = .line) := by
      rcases hpc with hp | rfl
      · simp [hp]
      · simp
    refine ⟨(s.journal.cut (if s.powered then phases else 0) run).array,
      (s.journal.cut (if s.powered then phases else 0) run).header, ?_,
      fun hs => Journal.cut_header hs _ _, ?_⟩
    · rintro (hp | rfl | ⟨hs, hf⟩)
      · simp [hp, Journal.cut_zero]
      · simp [Journal.cut_zero]
      · simp [Journal.cut_idle hs hf]
    · rw [exec_startUp hd, onStartUp, if_neg hruns]
      rfl
  · intro role unset h
    simp only [Port.atStartUp, if_neg h, Port.startFlags, Port.startMask, Port.blankMail]
  · intro phases run s hp hd
    refine ⟨_, exec_powerLoss hp hd phases run, rfl, rfl, rfl, rfl, rfl, rfl, ?_⟩
    rintro (rfl | ⟨hs, hf⟩)
    · simp [State.restart, Journal.atStartUp, Journal.cut_zero]
    · simp [State.restart, Journal.atStartUp, Journal.cut_idle hs hf]

/-- Settles O52: the work as one change, and the slot of a RECORDING anchor by what the scan found. -/
theorem startUpWorkIsDone : Obligations.StartUpWorkIsDone := by
  refine ⟨?_, ?_, ?_⟩
  · intro run s hd h
    show onStartUpScanDone run s.expireDue = _
    rw [State.expireDue_noneDue hd, onStartUpScanDone_idle h]
  · intro run s time hp hd hr hs hnone ht
    refine ⟨_, exec_startUpScanDone hp hd hr hs run, ?_⟩
    rw [State.finishStartUp_none run hnone, State.scanJournal_eq]
    refine ⟨rfl, rfl, rfl, Journal.foundSettings_fault, ?_, fun n x hx => ?_, rfl, ?_⟩
    · have htime : s.startUpTime = time := ht.symm
      refine congrArg (fun l => Register.mk s.register.marker l none)
        (List.map_congr_left fun a _ => ?_)
      have hsome : time.isSome = s.clock.running := by
        rw [ht]
        cases s.clock.running <;> rfl
      rw [htime]
      cases hst : a.state with
      | grouting =>
        cases hw : a.work.map Work.op with
        | none => simp [Anchor.fixUp, hst, hw, hsome]
        | some op => cases op <;> simp [Anchor.fixUp, hst, hw, hsome]
      | _ => simp [Anchor.fixUp, hst]
    · have h := recomputeFrom_getElem? (s.register.records.map (Anchor.fixUp s.startUpTime)) hx 1
      rw [Nat.add_comm, lockedTotal_eq] at h
      exact h
    · rfl
  · intro run s a c j hp hd hr hs ha hrec hpos hc hj
    subst hj
    have hscan := State.fixedUp_journal run s
    refine ⟨_, exec_startUpScanDone hp hd hr hs run, rfl, fun k hk hn => ?_,
      fun hn => ⟨fun hf => ?_, fun hready => ?_⟩⟩
    · refine State.finishStartUp_certified ha hrec hpos hc (State.settleSlot_written ?_)
      rw [hscan]
      exact Journal.written_eq_some hk hn
    · refine State.finishStartUp_certified ha hrec hpos hc (State.settleSlot_fault ?_ ?_)
      · rw [hscan]
        exact Journal.written_eq_none hn
      · rw [hscan]
        exact hf
    · obtain ⟨hjournal, hregister⟩ := State.finishStartUp_recording run ha hrec hc
      have hset : (s.fixedUp run).settleSlot c = _ := State.settleSlot_ready
        (by rw [hscan]; exact Journal.written_eq_none hn) (by rw [hscan]; exact hready)
      rw [hjournal, hregister, hset, ← hscan]
      exact ⟨rfl, (State.fixedUp_slot run s).trans hc, State.mem_fixedUp run ha hrec⟩

end Sys2Proof.Proofs
end

section
/-! SUPPORT. The mark list and the panel table: what every command keeps of the two. -/

namespace Sys2Proof.Machine

/-! ## The panel table (R74) -/

/-- A panel record that holds no reading, or one within -3000..3000 (R74). -/
def Panel.InRange (x : Panel) : Prop := ∀ r, x.reading = some r → -3000 ≤ r.1 ∧ r.1 ≤ 3000

theorem panelsSound_iff (ps : List Panel) :
    panelsSound ps = true ↔ ps.length = 32 ∧ ∀ x ∈ ps, x.InRange := by
  simp only [panelsSound, Bool.and_eq_true, beq_iff_eq, List.all_eq_true, Panel.InRange]
  refine and_congr_right fun _ => forall₂_congr fun x _ => ?_
  cases x.reading <;> simp

/-- A change of a record that keeps its reading in range keeps the table sound. -/
theorem panelsSound_put {ps : List Panel} {f : Panel → Panel} (h : panelsSound ps = true)
    (hf : ∀ x : Panel, x.Moves (f x)) (n : Nat) :
    panelsSound (putPanel n (f (panelAt ps n)) ps) = true := by
  obtain ⟨hlen, hall⟩ := (panelsSound_iff ps).mp h
  unfold putPanel
  split
  · exact h
  · refine (panelsSound_iff _).mpr ⟨by rw [List.length_set, hlen], fun y hy => ?_⟩
    obtain hy | rfl := List.mem_or_eq_of_mem_set hy
    · exact hall y hy
    · refine hf _ ?_
      rcases Nat.lt_or_ge (n - 1) ps.length with hn | hn
      · rw [panelAt, List.getD_eq_getElem _ _ hn]
        exact hall _ (List.getElem_mem hn)
      · rw [panelAt, List.getD_eq_default _ _ hn]
        exact fun r hr => by cases hr

@[simp] theorem length_recomputeFrom (records : List Anchor) (n : Nat) (ps : List Panel) :
    (recomputeFrom records n ps).length = ps.length := by
  induction ps generalizing n with
  | nil => rfl
  | cons x rest ih => exact congrArg Nat.succ (ih (n + 1))

/-- Locked sums computed anew leave the readings (R85). -/
theorem inRange_recomputeFrom {ps : List Panel} (h : ∀ x ∈ ps, x.InRange) (records : List Anchor)
    (n : Nat) : ∀ x ∈ recomputeFrom records n ps, x.InRange := by
  induction ps generalizing n with
  | nil => exact h
  | cons x rest ih =>
    rw [List.forall_mem_cons] at h
    exact List.forall_mem_cons.mpr ⟨h.1, ih h.2 (n + 1)⟩

theorem panelsSound_recompute {ps : List Panel} (h : panelsSound ps = true)
    (records : List Anchor) (n : Nat) : panelsSound (recomputeFrom records n ps) = true := by
  obtain ⟨hlen, hall⟩ := (panelsSound_iff ps).mp h
  exact (panelsSound_iff _).mpr
    ⟨(length_recomputeFrom records n ps).trans hlen, inRange_recomputeFrom hall records n⟩

/-! ## What every command keeps of the mark list and the panel table -/

/-- A property of the mark list and the panel table that each change of them keeps: the insertions and
removals of marks (R37, R38, R39), the changes of a panel's record (R74, R78), the locked sums computed
anew (R85), and a start-up (R40, R83). -/
structure MarksAndPanels.Kept (Q : List Mark → List Panel → Prop) : Prop where
  insert : ∀ {s : State} {ps : List Panel} (n : MarkName) (due : SiteTime), Q s.marks ps →
    Q (s.insertMark n due).marks ps
  filter : ∀ {ms : List Mark} {ps : List Panel} (f : Mark → Bool), Q ms ps → Q (ms.filter f) ps
  tail : ∀ {m : Mark} {ms : List Mark} {ps : List Panel}, Q (m :: ms) ps → Q ms ps
  panel : ∀ {ms : List Mark} {ps : List Panel} {f : Panel → Panel} (n : Nat), Q ms ps →
    (∀ x : Panel, x.Moves (f x)) → Q ms (putPanel n (f (panelAt ps n)) ps)
  recompute : ∀ {ms : List Mark} {ps : List Panel} (records : List Anchor), Q ms ps →
    Q ms (recomputeFrom records 1 ps)
  start : Q [] (List.replicate 32 .atStartUp)

/-- A property of the two lists, as one of the state that holds them. -/
def MarksAndPanels.Of (Q : List Mark → List Panel → Prop) (s : State) : Prop := Q s.marks s.panels

theorem State.acceptRelease_marks (e : Engine) (s : State) :
    (s.acceptRelease e).marks = s.marks := by
  unfold State.acceptRelease
  split <;> rfl

theorem State.acceptRelease_panels (e : Engine) (s : State) :
    (s.acceptRelease e).panels = s.panels := by
  unfold State.acceptRelease
  split <;> rfl

namespace MarksAndPanels.Kept

variable {Q : List Mark → List Panel → Prop} {s t : State}

/-- Such a property survives every shared operation. -/
theorem keeps (q : Kept Q) : Keeps (Of Q) where
  free {s t} h e := by
    have hm : t.marks = s.marks := congrArg Guarded.marks e
    have hp : t.panels = s.panels := congrArg Guarded.panels e
    rw [Of, hm, hp]
    exact h
  insertMark n due h := q.insert n due h
  dropMarks f h := q.filter f h
  headMark {s m rest} h hm := by
    rw [Of, hm] at h
    exact q.tail h
  duty _ _ _ h := h
  period _ _ h := h
  claim _ _ h _ _ := h
  release e h := by
    rw [Of, State.acceptRelease_marks, State.acceptRelease_panels]
    exact h
  line _ h := h
  trip h _ := h
  clear h := h
  raise _ h := h
  port _ _ h _ := h
  records _ h _ := h
  found _ h _ _ := h
  slot _ h := h
  declare _ h _ _ _ := h
  withdraw h _ _ := h
  panel n _ h hf := q.panel n h hf
  ask _ _ _ h := h
  settle _ h _ := h
  stage _ _ h _ := h
  profile _ _ _ h := h
  unstage h := h

theorem startedUp (q : Kept Q) (cause : StartCause) (pins : StartPins) (phases : Nat)
    (run : AppendRun) (h : Of Q s) : After (Of Q) (exec (.startUp cause pins phases run) s) := by
  have hd : Of Q s.expireDue := q.keeps.expireDue h
  show After (Of Q) (onStartUp cause pins phases run s.expireDue)
  unfold onStartUp
  split
  · exact hd
  · exact q.start

theorem powerLost (q : Kept Q) (phases : Nat) (run : AppendRun) (h : Of Q s) :
    After (Of Q) (exec (.powerLoss phases run) s) :=
  Keeps.powered (P := Of Q) (q.keeps.expireDue h) fun _ _ => q.start

theorem finishStartUp (q : Kept Q) (run : ScanRun) (h : Of Q s) : Of Q (s.finishStartUp run) := by
  have hscan : Of Q (s.scanJournal run) := by
    rw [State.scanJournal_eq]
    exact h
  exact q.recompute _ (q.keeps.fixUpSlot (q.keeps.fixUpRecords hscan))

theorem scanDone (q : Kept Q) (run : ScanRun) (h : Of Q s) :
    After (Of Q) (exec (.startUpScanDone run) s) := by
  have hd : Of Q s.expireDue := q.keeps.expireDue h
  show After (Of Q) (onStartUpScanDone run s.expireDue)
  unfold onStartUpScanDone
  split
  · exact hd
  · exact q.finishStartUp run hd

theorem exec (q : Kept Q) (c : Instr) (h : Of Q s) : After (Of Q) (Machine.exec c s) :=
  q.keeps.exec_every h (fun cause pins phases run => q.startedUp cause pins phases run h)
    (fun phases run => q.powerLost phases run h) (fun run => q.scanDone run h)
    (fun run => q.keeps.appended (fun hu _ => hu) run h) c

theorem step (q : Kept Q) (h : Of Q s) (hst : Machine.step s = .next t) : Of Q t := by
  unfold Machine.step at hst
  split at hst
  · cases hst
    exact h
  · next c rest _ =>
    have he : After (Of Q) (Machine.exec c { s with pending := rest }) := q.exec c h
    rw [hst] at he
    exact he

end MarksAndPanels.Kept

/-- Order and distinct names of the marks are kept (R34, R35). -/
theorem marksSound_kept : MarksAndPanels.Kept fun ms _ => marksSound ms = true where
  insert _ _ h := State.insertMark_sound h
  filter _ h := marksSound_filter h
  tail h := marksSound_tail h
  panel _ h _ := h
  recompute _ h := h
  start := rfl

/-- The 32 records and the range of their readings are kept (R74). -/
theorem panelsSound_kept : MarksAndPanels.Kept fun _ ps => panelsSound ps = true where
  insert _ _ h := h
  filter _ h := h
  tail h := h
  panel n h hf := panelsSound_put h hf n
  recompute records h := panelsSound_recompute h records 1
  start := rfl

end Sys2Proof.Machine

namespace Sys2Proof.Proofs

open Sys2Proof.Machine

/-- Settles O56: each of the two properties is kept by every change of its list, hence by every
step. -/
theorem marksAndPanelsAreKept : Obligations.MarksAndPanelsAreKept :=
  ⟨fun _ _ h hst => marksSound_kept.step h hst, fun _ _ h hst => panelsSound_kept.step h hst⟩

/-- Settles O12: the list without the mark of that name, split where the new mark is placed. -/
theorem markInsertion : Obligations.MarkInsertion := by
  intro n due s h
  have hsorted : marksSorted (dropMark n s.marks) = true := by
    simp only [marksSound, Bool.and_eq_true] at h
    exact marksSorted_filter h.1
  exact ⟨State.insertMark_sound h, placeMark_split (m := ⟨due, n⟩) hsorted, rfl⟩

end Sys2Proof.Proofs
end

section
/-! SUPPORT. The site clock's requests as their decisions make them, and its tick. -/

namespace Sys2Proof.Machine

theorem setTime_decided (p : PortNo) (form : List Byte) :
    DecidedBy (.setTime p form) decideSetTime := fun _ h _ => by cases h; rfl

theorem shiftTime_decided (p : PortNo) (form : List Byte) :
    DecidedBy (.shiftTime p form) decideShiftTime := fun _ h _ => by cases h; rfl

/-- A SET_TIME is taken by a clock that is UNSET, and by a part with its engines IDLE that appends
nothing (R31). -/
theorem decideSetTime_taken {ps : List Byte} {s : State} (hl : ps.length = 4)
    (hi : s.clock.running = false ∨ (s.winch.state = .idle ∧ s.grout.state = .idle ∧
      s.stress.state = .idle ∧ s.journal.state ≠ .appending)) :
    decideSetTime ps s =
      .reply .ok (encTime s.clock.time ++ encTime (u32At ps 0 * 1024))
        { s with clock := s.clock.set (u32At ps 0) } := by
  have hfree : (s.clock.running && (!s.enginesIdle || s.journal.state == .appending)) = false := by
    rcases hi with hr | ⟨hw, hg, hs, hj⟩
    · rw [hr, Bool.false_and]
    · simp [State.enginesIdle, hw, hg, hs, hj]
  simp [decideSetTime, hl, hfree, State.now]

/-- A time shifted is limited at both ends (R32). -/
theorem shiftedTime_eq {t u : SiteTime} {d : Int}
    (h : (u : Int) = max 0 (min (Config.maxTime : Int) (t + d))) : shiftedTime t d = u := by
  show min ((t : Int) + d).toNat Config.maxTime = (u : Nat)
  omega

/-- A SHIFT_TIME is taken by a RUNNING clock when its amount is in range (R32). -/
theorem decideShiftTime_taken {ps : List Byte} {s : State} {t : Nat} (hl : ps.length = 2)
    (ha : (s16At ps 0).natAbs ≤ 999) (hr : s.clock.running = true)
    (ht : shiftedTime s.clock.time (shiftFractions (s16At ps 0)) = t) :
    decideShiftTime ps s =
      .reply (if (s.clock.time : Int) + shiftFractions (s16At ps 0) = t then .ok else .okClamped)
        (encTime t ++ encS16 (t - s.clock.time)) { s with clock := s.clock.moveTo t } := by
  have hmoved : (t : Int) - s.clock.time = shiftFractions (s16At ps 0) ↔
      (s.clock.time : Int) + shiftFractions (s16At ps 0) = t := by omega
  simp only [decideShiftTime, hl, ne_eq, not_true_eq_false, if_false, Nat.not_lt.mpr ha, hr,
    Bool.not_true, Bool.false_eq_true, State.now, ht, hmoved]

theorem Clock.tick_counting {c : Clock} (hr : c.running = true) (hs : c.supplied = true)
    (ht : c.stopped = false) : c.tick = c.moveTo (min (c.time + 1) Config.maxTime) := by
  rcases c.tick_cases with ⟨-, h⟩ | ⟨-, -, -, h⟩
  · simp [hr, hs, ht] at h
  · exact h

theorem Clock.tick_still {c : Clock}
    (h : c.running = false ∨ c.supplied = false ∨ c.stopped = true) : c.tick = c := by
  rcases c.tick_cases with ⟨h, -⟩ | ⟨hr, hs, ht, -⟩
  · exact h
  · simp [hr, hs, ht] at h

theorem exec_siteClockTick {s : State} (hd : s.noneDue = true) :
    exec .siteClockTick s = .next { s with clock := s.clock.tick } := by
  show onSiteClockTick s.expireDue = _
  rw [State.expireDue_noneDue hd, onSiteClockTick]

/-- A tick changes nothing when the clock does not count. -/
theorem exec_siteClockTick_still {s : State} (hd : s.noneDue = true)
    (h : s.clock.running = false ∨ s.clock.supplied = false ∨ s.clock.stopped = true) :
    exec .siteClockTick s = .next s := by
  rw [exec_siteClockTick hd, Clock.tick_still h]

theorem exec_clockDomainSupplyLoss {s : State} (hd : s.noneDue = true) :
    exec .clockDomainSupplyLoss s =
      .next { s with clock := { s.clock with marker := false, supplied := false } } := by
  show onClockDomainSupplyLoss s.expireDue = _
  rw [State.expireDue_noneDue hd, onClockDomainSupplyLoss]

end Sys2Proof.Machine

namespace Sys2Proof.Proofs

open Sys2Proof.Machine

/-- Settles O11: both requests by their decision when taken, the tick by whether the clock counts. -/
theorem clockCommands : Obligations.ClockCommands := by
  refine ⟨⟨?_, ?_⟩, ?_, ?_, ?_, ?_⟩
  · intro p form s r ps h hl hi
    exact h.reply (setTime_decided p form) (decideSetTime_taken hl hi)
  · intro p form s r ps d t h hl ha hr hd ht
    subst hd
    exact h.reply (shiftTime_decided p form)
      (decideShiftTime_taken hl ha hr (shiftedTime_eq ht))
  · intro s hd hr hs ht
    rw [exec_siteClockTick hd, Clock.tick_counting hr hs ht]
    simp [Clock.moveTo, Config.maxTime, ht]
  · exact fun s hd hstill => exec_siteClockTick_still hd hstill
  · exact fun s hd => exec_clockDomainSupplyLoss hd
  · intro s t hd hloss
    rw [exec_clockDomainSupplyLoss hd] at hloss
    cases hloss
    exact exec_siteClockTick_still hd (.inr (.inl rfl))

end Sys2Proof.Proofs
end

section
/-! SUPPORT. The expiry of every due mark: how many expiries a state has left, what each owner's
handling adds to them, and why the heads expire until none is due. -/

namespace Sys2Proof.Machine

/-! ## The expiries that a state has left -/

/-- How many expiries a mark may cost: its own, and that of the mark that its handling may insert. A
batch's EXPIRY may insert a COLD_JOINT mark (R115, R122), the end of a hold a SUSPENSION mark (R142,
R146). -/
def MarkName.cost : MarkName → Nat
  | .expiry _ => 2
  | .holdEnd _ => 2
  | _ => 1

theorem MarkName.one_le_cost (n : MarkName) : 1 ≤ n.cost := by cases n <;> simp [cost]

theorem MarkName.cost_le_two (n : MarkName) : n.cost ≤ 2 := by cases n <;> simp [cost]

/-- What the marks of a list cost. -/
def marksCost (ms : List Mark) : Nat := (ms.map fun m => m.name.cost).sum

@[simp] theorem marksCost_nil : marksCost [] = 0 := rfl

@[simp] theorem marksCost_cons (m : Mark) (ms : List Mark) :
    marksCost (m :: ms) = m.name.cost + marksCost ms := by simp [marksCost]

theorem marksCost_filter_le (f : Mark → Bool) (ms : List Mark) :
    marksCost (ms.filter f) ≤ marksCost ms := by
  induction ms with
  | nil => exact Nat.le_refl _
  | cons m rest ih =>
    rw [List.filter_cons]
    split <;> simp only [marksCost_cons] <;> omega

theorem marksCost_placeMark (m : Mark) (ms : List Mark) :
    marksCost (placeMark m ms) = m.name.cost + marksCost ms := by
  induction ms with
  | nil => rfl
  | cons x rest ih =>
    simp only [placeMark]
    split
    · simp only [marksCost_cons, ih]; omega
    · simp only [marksCost_cons]

theorem marksCost_le_length (ms : List Mark) : marksCost ms ≤ 2 * ms.length := by
  induction ms with
  | nil => exact Nat.le_refl _
  | cons m rest ih =>
    have := m.name.cost_le_two
    simp only [marksCost_cons, List.length_cons]
    omega

/-- A hold that stands and has not been extended may be extended, once (R142). -/
def Stress.extendable (e : Stress) : Bool := e.state == .stepHold && !e.extended

/-- A bound of the expiries that can follow one another with the clock standing still. -/
def State.expiriesLeft (s : State) : Nat :=
  marksCost s.marks + s.stress.extendable.toNat

theorem State.expiriesLeft_le (s : State) : s.expiriesLeft ≤ 2 * s.marks.length + 1 := by
  have hmarks := marksCost_le_length s.marks
  have hhold := s.stress.extendable.toNat_le
  unfold State.expiriesLeft
  omega

/-- Without an expiry left the list is empty. -/
theorem State.noneDue_of_expiriesLeft {s : State} (h : s.expiriesLeft = 0) : s.noneDue = true := by
  have hnil : s.marks = [] := by
    cases hm : s.marks with
    | nil => rfl
    | cons m rest =>
      have := m.name.one_le_cost
      simp only [State.expiriesLeft, hm, marksCost_cons] at h
      omega
  simp [State.noneDue, hnil]

theorem State.endMakeUp_state (s : State) : s.endMakeUp.stress.state = s.stress.state := by
  unfold State.endMakeUp
  split <;> rfl

theorem State.recordStepEnd_state (st : Step) (s : State) :
    (s.recordStepEnd st).stress.state = s.stress.state := by
  unfold State.recordStepEnd
  split <;> rfl

/-! ## What a handling adds -/

/-- What the expiries that are left turn on. -/
structure Timing where
  clock : Clock
  powered : Bool
  marks : List Mark
  extendable : Bool

/-- That part of a state. -/
def State.timing (s : State) : Timing where
  clock := s.clock
  powered := s.powered
  marks := s.marks
  extendable := s.stress.extendable

/-- The clock and the supply are those given, and at most so many expiries are left. -/
structure State.Within (c : Clock) (b : Bool) (k : Nat) (s : State) : Prop where
  clock : s.clock = c
  powered : s.powered = b
  bound : s.expiriesLeft ≤ k

namespace State.Within

variable {c : Clock} {b : Bool} {j k : Nat} {s t : State}

theorem mono (h : Within c b j s) (hjk : j ≤ k) : Within c b k s :=
  ⟨h.clock, h.powered, Nat.le_trans h.bound hjk⟩

theorem free (h : Within c b k s) (e : t.timing = s.timing) : Within c b k t where
  clock := (congrArg Timing.clock e).trans h.clock
  powered := (congrArg Timing.powered e).trans h.powered
  bound := by
    have hm : t.marks = s.marks := congrArg Timing.marks e
    have he : t.stress.extendable = s.stress.extendable := congrArg Timing.extendable e
    rw [expiriesLeft, hm, he]
    exact h.bound

/-- A stress engine out of its hold adds nothing. -/
theorem stress (h : Within c b k s) {e : Stress} (he : e.state ≠ .stepHold) :
    Within c b k { s with stress := e } where
  clock := h.clock
  powered := h.powered
  bound := by
    have hoff : e.extendable = false := by simp [Stress.extendable, he]
    have := h.bound
    simp only [expiriesLeft, hoff, Bool.toNat_false] at this ⊢
    omega

/-- A removal of marks adds nothing. -/
theorem dropMarks (f : Mark → Bool) (h : Within c b k s) :
    Within c b k { s with marks := s.marks.filter f } where
  clock := h.clock
  powered := h.powered
  bound := by
    have := marksCost_filter_le f s.marks
    have := h.bound
    simp only [expiriesLeft] at this ⊢
    omega

theorem removeMark (n : MarkName) (h : Within c b k s) : Within c b k (s.removeMark n) :=
  h.dropMarks _

/-- An insertion adds what its mark costs. -/
theorem insertMark (n : MarkName) (due : SiteTime) (h : Within c b k s) :
    Within c b (k + n.cost) (s.insertMark n due) where
  clock := h.clock
  powered := h.powered
  bound := by
    have hplaced : marksCost (s.insertMark n due).marks ≤ n.cost + marksCost s.marks := by
      rw [insertMark_marks, marksCost_placeMark]
      exact Nat.add_le_add_left (marksCost_filter_le _ _) _
    have := h.bound
    simp only [expiriesLeft, insertMark_stress] at this ⊢
    omega

theorem raise (e : Event) (h : Within c b k s) : Within c b k (s.raise e) := h.free rfl

theorem send (d : Delivery) (h : Within c b k s) : Within c b k (s.send d) := h.free rfl

theorem duty (e : Engine) (v : Valve) (d : Nat) (h : Within c b k s) :
    Within c b k (s.writeDuty e v d) := h.free rfl

/-! ### The panel table and the winch engine -/

theorem changePanel (n : Nat) (new : PanelState) (h : Within c b k s) :
    Within c b k (s.changePanel n new) := by
  unfold State.changePanel
  simp only []
  split
  · exact h
  · exact h.free rfl

theorem stopJamTiming (h : Within c b k s) : Within c b k s.stopJamTiming := by
  unfold State.stopJamTiming
  split
  · exact removeMark _ (h.free rfl)
  · exact h

theorem stopWinch (r : StopReason) (h : Within c b k s) : Within c b k (s.stopWinch r) :=
  raise _ (free (stopJamTiming (duty _ _ _ h)) rfl)

theorem winchJam (h : Within c b k s) : Within c b k s.winchJam := by
  unfold State.winchJam
  split
  · exact stopWinch _ (h.free rfl)
  · exact h

/-! ### The grout engine and the batch queue -/

theorem reportGrout (o : GroutOutcome) (h : Within c b k s) : Within c b k (s.reportGrout o) := by
  unfold State.reportGrout
  split
  · exact h.free rfl
  · exact h

theorem endGrout (o : GroutOutcome) (h : Within c b k s) : Within c b k (s.endGrout o) :=
  raise _ (free (reportGrout _ (send _ (removeMark _ (removeMark _ (duty _ _ _ h))))) rfl)

theorem groutColdJoint (h : Within c b k s) : Within c b k s.groutColdJoint := by
  unfold State.groutColdJoint
  split
  · exact h.endGrout _
  · exact h

theorem groutRefusal (h : Within c b k s) : Within c b k s.groutRefusal := by
  unfold State.groutRefusal
  split
  · exact h.endGrout _
  · exact h

/-- A break that begins to be timed adds its COLD_JOINT mark (R115). -/
theorem timeBreak (h : Within c b k s) : Within c b (k + 1) s.timeBreak := by
  unfold State.timeBreak
  split
  · exact h.insertMark .coldJoint _
  · exact h.mono (Nat.le_succ k)

theorem pauseGrout (r : PauseReason) (h : Within c b k s) : Within c b (k + 1) (s.pauseGrout r) :=
  raise _ (timeBreak (free (removeMark _ (duty _ _ _ h)) rfl))

theorem groutLoseQueue (h : Within c b k s) : Within c b (k + 1) s.groutLoseQueue :=
  timeBreak (h.free rfl)

theorem removeBatch (id : Nat) (h : Within c b k s) : Within c b (k + 1) (s.removeBatch id) := by
  have hgone : Within c b k (s.takeBatch id) := (h.dropMarks _).free rfl
  unfold State.removeBatch State.groutRemoval
  split
  · exact hgone.pauseGrout _
  · split
    · exact hgone.groutLoseQueue
    · exact hgone.mono (Nat.le_succ k)

/-! ### The stress engine -/

theorem enterUnloading (code : TestCode) (h : Within c b k s) :
    Within c b k (s.enterUnloading code) := by
  rw [State.enterUnloading_eq]
  have hmarks := h.dropMarks fun m => !m.name.ofStress
  exact (hmarks.stress (e := { s.stress with
    state := .unloading, makingUp := false, suspension := none, pendingEnd := some code })
    (by simp)).free rfl

/-- A suspension adds its SUSPENSION mark (R146). -/
theorem suspend (r : ResumeKind) (h : Within c b k s) : Within c b (k + 1) (s.suspend r) := by
  have hjack : Within c b k s.stopJack := duty _ _ _ (duty _ _ _ h)
  exact raise _ (insertMark (.suspension _) _ (hjack.stress (by simp)))

theorem evaluateLength (h : Within c b k s) : Within c b k s.evaluateLength := by
  unfold State.evaluateLength
  split
  · exact h
  · simp only []
    split
    · exact enterUnloading _ (h.free rfl)
    · split
      · exact enterUnloading _ (h.free rfl)
      · exact h.stress (by simp)

theorem progress (h : Within c b k s) : Within c b (k + 1) s.progress := by
  unfold State.progress
  split
  · split
    · exact h.evaluateLength.mono (Nat.le_succ k)
    · exact h.suspend _
  · split
    · exact (h.stress (by simp)).mono (Nat.le_succ k)
    · exact h.suspend _

theorem judgeCreep (x : Int) (h : Within c b k s) : Within c b (k + 1) (s.judgeCreep x) := by
  unfold State.judgeCreep
  split
  · exact h.progress
  · exact (h.enterUnloading _).mono (Nat.le_succ k)

/-- A hold that is extended costs its HOLD_END mark again and can be extended no more (R142). -/
theorem extendHold (i : Nat) (st : Step) (alpha : Int) (h : Within c b k s)
    (hs : s.stress.state = .stepHold) (he : s.stress.extended = false) :
    Within c b (k + 1) (s.extendHold i st alpha) := by
  have hbefore : marksCost s.marks + 1 ≤ k := by
    simpa [expiriesLeft, Stress.extendable, hs, he] using h.bound
  have hspent : Within c b (k - 1) { s with stress := { s.stress with
      extended := true, creepFigure := some alpha } } :=
    ⟨h.clock, h.powered, Nat.le_sub_of_add_le (by
      simpa [expiriesLeft, Stress.extendable] using hbefore)⟩
  exact (hspent.insertMark (.holdEnd i) _).mono (by simp only [MarkName.cost]; omega)

theorem afterHold (i : Nat) (st : Step) (h : Within c b k s) (hs : s.stress.state = .stepHold) :
    Within c b (k + 1) (s.afterHold i st) := by
  unfold State.afterHold
  split
  · exact h.progress
  · split
    · exact judgeCreep _ (h.free rfl)
    next hext =>
      split
      · exact h.extendHold i st _ hs (by simpa using hext)
      · exact judgeCreep _ (h.free rfl)

theorem endMakeUp (h : Within c b k s) : Within c b k s.endMakeUp := by
  unfold State.endMakeUp
  split
  · exact duty _ _ _ (h.free rfl)
  · exact h

theorem recordStepEnd (st : Step) (h : Within c b k s) : Within c b k (s.recordStepEnd st) := by
  unfold State.recordStepEnd
  split <;> exact h.free rfl

theorem stressHoldEnd (i : Nat) (h : Within c b k s) : Within c b (k + 1) (s.stressHoldEnd i) := by
  unfold State.stressHoldEnd
  split
  next hs =>
    split
    next st _ =>
      refine (h.endMakeUp.recordStepEnd st).afterHold i st ?_
      rw [State.recordStepEnd_state, State.endMakeUp_state]
      exact hs.1
    · exact h.mono (Nat.le_succ k)
  · exact h.mono (Nat.le_succ k)

theorem beginLift (h : Within c b k s) : Within c b k s.beginLift :=
  duty _ _ _ (free (h.stress (e := { s.stress with state := .liftCheck }) (by simp)) rfl)

theorem stressSeat (h : Within c b k s) : Within c b k s.stressSeat := by
  unfold State.stressSeat
  split
  · exact beginLift (h.free rfl)
  · exact h

theorem stressCreep (i : Nat) (h : Within c b k s) : Within c b k (s.stressCreep i) := by
  unfold State.stressCreep
  split
  · exact h.free rfl
  · exact h

theorem stressSuspension (h : Within c b k s) : Within c b k s.stressSuspension := by
  unfold State.stressSuspension
  split
  next hs =>
    have hw : s.stress.state ≠ .waitFlow := by simp [hs]
    rw [State.abortTest, if_neg hw]
    exact h.enterUnloading _
  · exact h

/-! ### Every owner -/

/-- An owner's handling of a mark adds one less than the mark costs. -/
theorem expired (n : MarkName) (h : Within c b k s) :
    Within c b (k + (n.cost - 1)) (s.expired n) := by
  cases n with
  | staleness panel => exact h.changePanel panel .stale
  | expiry id => exact h.removeBatch id
  | jam => exact h.winchJam
  | coldJoint => exact h.groutColdJoint
  | refusal => exact h.groutRefusal
  | holdEnd i => exact h.stressHoldEnd i
  | seat i => exact h.stressSeat
  | creep i point => exact h.stressCreep i
  | suspension i => exact h.stressSuspension

end State.Within

/-! ## One head after another (R39) -/

theorem State.noneDue_or_headDue (s : State) :
    s.noneDue = true ∨ ∃ m rest, s.marks = m :: rest ∧ m.due ≤ s.clock.time := by
  cases hm : s.marks with
  | nil => exact .inl (by simp [State.noneDue, hm])
  | cons m rest =>
    rcases Nat.lt_or_ge s.clock.time m.due with hd | hd
    · exact .inl (by simpa [State.noneDue_cons hm] using hd)
    · exact .inr ⟨m, rest, rfl, hd⟩

/-- The head leaves the list and its owner handles it: one expiry less is left. -/
theorem State.expired_within {s : State} {m : Mark} {rest : List Mark} (hm : s.marks = m :: rest)
    {k : Nat} (hk : s.expiriesLeft ≤ k + 1) :
    State.Within s.clock s.powered k (State.expired m.name { s with marks := rest }) := by
  have hcost := m.name.one_le_cost
  simp only [State.expiriesLeft, hm, marksCost_cons] at hk
  have hrest : State.Within s.clock s.powered (k + 1 - m.name.cost) { s with marks := rest } :=
    ⟨rfl, rfl, by simp only [State.expiriesLeft]; omega⟩
  exact (hrest.expired m.name).mono (by omega)

/-- While a head is due, an expiry of it and the others after it. -/
theorem State.expireHeads_due {s : State} {m : Mark} {rest : List Mark} (hm : s.marks = m :: rest)
    (hd : m.due ≤ s.clock.time) (n : Nat) :
    s.expireHeads (n + 1) = (State.expired m.name { s with marks := rest }).expireHeads n := by
  have hdue : s.noneDue = false := by simpa [State.noneDue_cons hm] using hd
  rw [State.expireHeads, hdue, State.expireHead_due hm hd rfl]
  rfl

theorem State.Within.expireHeads {c : Clock} {b : Bool} {k : Nat} {s : State}
    (h : State.Within c b k s) (n : Nat) : State.Within c b k (s.expireHeads n) := by
  induction n generalizing s with
  | zero => exact h
  | succ n ih =>
    rcases s.noneDue_or_headDue with hdue | ⟨m, rest, hm, hd⟩
    · rwa [State.expireHeads_noneDue hdue]
    · rw [State.expireHeads_due hm hd]
      have hhead := State.expired_within hm (Nat.le_succ s.expiriesLeft)
      exact ih ⟨hhead.clock.trans h.clock, hhead.powered.trans h.powered,
        Nat.le_trans hhead.bound h.bound⟩

/-- As many expiries as are left leave no mark due. -/
theorem State.expireHeads_enough {s : State} {n : Nat} (h : s.expiriesLeft ≤ n) :
    (s.expireHeads n).noneDue = true := by
  induction n generalizing s with
  | zero => exact State.noneDue_of_expiriesLeft (Nat.le_zero.mp h)
  | succ n ih =>
    rcases s.noneDue_or_headDue with hdue | ⟨m, rest, hm, hd⟩
    · rwa [State.expireHeads_noneDue hdue]
    · rw [State.expireHeads_due hm hd]
      exact ih (State.expired_within hm h).bound

/-- Any two numbers of expiries that suffice come to the same. -/
theorem State.expireHeads_eq {s : State} {n k : Nat} (hn : s.expiriesLeft ≤ n)
    (hk : s.expiriesLeft ≤ k) : s.expireHeads n = s.expireHeads k := by
  induction n generalizing s k with
  | zero =>
    have hdue := State.noneDue_of_expiriesLeft (Nat.le_zero.mp hn)
    rw [State.expireHeads_noneDue hdue, State.expireHeads_noneDue hdue]
  | succ n ih =>
    rcases s.noneDue_or_headDue with hdue | ⟨m, rest, hm, hd⟩
    · rw [State.expireHeads_noneDue hdue, State.expireHeads_noneDue hdue]
    · cases k with
      | zero =>
        have hdue := State.noneDue_of_expiriesLeft (Nat.le_zero.mp hk)
        rw [State.expireHeads_noneDue hdue, State.expireHeads_noneDue hdue]
      | succ k =>
        rw [State.expireHeads_due hm hd, State.expireHeads_due hm hd]
        exact ih (State.expired_within hm hn).bound (State.expired_within hm hk).bound

/-! ## Every due mark (R33, R39) -/

theorem State.expireDue_powered {s : State} (h : s.powered = true) :
    s.expireDue = s.expireHeads (2 * s.marks.length + 1) := State.whenPowered_pos h _

/-- With main supply no mark stays due. -/
theorem State.noneDue_expireDue {s : State} (h : s.powered = true) :
    s.expireDue.noneDue = true := by
  rw [State.expireDue_powered h]
  exact State.expireHeads_enough s.expiriesLeft_le

/-- The expiries leave the clock and the supply. -/
theorem State.expireDue_within {s : State} (h : s.powered = true) :
    State.Within s.clock s.powered s.expiriesLeft s.expireDue := by
  rw [State.expireDue_powered h]
  exact State.Within.expireHeads ⟨rfl, rfl, Nat.le_refl _⟩ _

/-- Once every due mark has expired there is nothing more to expire. -/
theorem State.expireDue_expireDue (s : State) : s.expireDue.expireDue = s.expireDue := by
  cases hp : s.powered with
  | true => exact State.expireDue_noneDue (State.noneDue_expireDue hp)
  | false => rw [State.expireDue_unpowered hp, State.expireDue_unpowered hp]

/-- A due head expires, and after it what that leaves due. -/
theorem State.expireDue_cons {s : State} {m : Mark} {rest : List Mark} (hp : s.powered = true)
    (hm : s.marks = m :: rest) (hd : m.due ≤ s.clock.time) :
    s.expireDue = (State.expired m.name { s with marks := rest }).expireDue := by
  have hhead := State.expired_within hm s.expiriesLeft_le
  rw [State.expireDue_powered hp, State.expireHeads_due hm hd,
    State.expireDue_powered (hhead.powered.trans hp)]
  exact State.expireHeads_eq hhead.bound (State.expiriesLeft_le _)

/-! ## The commands -/

/-- Whether a command is an expiry. -/
def isExpiry : Instr → Bool
  | .stalenessExpiry _ | .batchExpiry _ | .jamExpiry | .coldJointExpiry | .refusalExpiry
  | .creepExpiry | .holdEndExpiry | .seatExpiry | .suspensionExpiry => true
  | _ => false

/-- A command other than an expiry finds the same when every due mark has expired before it. -/
theorem exec_expireDue {c : Instr} (h : isExpiry c = false) (s : State) :
    exec c s = exec c s.expireDue := by
  have hd : s.expireDue = s.expireDue.expireDue := (State.expireDue_expireDue s).symm
  have supplied : ∀ f : State → State, (.next (s.expireDue.whenPowered f) :
      Host.Outcome State Fault Refusal) = .next (s.expireDue.expireDue.whenPowered f) :=
    fun _ => by rw [← hd]
  cases hr : asRequest c with
  | some r =>
    obtain ⟨decide, he⟩ := exec_request hr
    rw [he, he, ← hd]
  | none =>
    cases c <;> cases hr <;> cases h
    case startUp.refl.refl cause pins phases run =>
      exact congrArg (onStartUp cause pins phases run) hd
    case mailboxWrite.refl.refl p offset bytes stop =>
      exact congrArg (onMailboxWrite p offset bytes stop) hd
    case unknownRequestSubmission.refl.refl p code form =>
      exact congrArg (submission p code form) hd
    case startUpScanDone.refl.refl run => exact congrArg (onStartUpScanDone run) hd
    case siteClockTick.refl.refl => exact congrArg onSiteClockTick hd
    case clockDomainSupplyLoss.refl.refl => exact congrArg onClockDomainSupplyLoss hd
    all_goals exact supplied _

/-- An expiry command expires the head when that is of its kind. -/
theorem exec_expiry {c : Instr} (h : isExpiry c = true) :
    ∃ accepts, ∀ s, exec c s = .next (s.whenPowered fun u => u.expireHead accepts) := by
  cases c <;> cases h <;> exact ⟨_, fun _ => rfl⟩

/-- With no mark due an expiry command finds no head to expire. -/
theorem State.expireHead_noneDue {s : State} (h : s.noneDue = true) (f : MarkName → Bool) :
    s.expireHead f = s := by
  rcases State.expireHead_cases f s with e | ⟨m, rest, hm, hd, -, -⟩
  · exact e
  · rw [State.noneDue_cons hm] at h
    exact absurd hd (Nat.not_le.mpr (of_decide_eq_true h))

theorem exec_expiry_noneDue {c : Instr} (h : isExpiry c = true) {s : State}
    (hd : s.noneDue = true) : exec c s = .next s := by
  obtain ⟨accepts, he⟩ := exec_expiry h
  rw [he]
  cases hp : s.powered with
  | true => rw [State.whenPowered_pos hp, State.expireHead_noneDue hd]
  | false => rw [State.whenPowered_neg hp]

/-- The expiry command of a mark (R33). -/
def MarkName.command : MarkName → Instr
  | .staleness n => .stalenessExpiry n
  | .expiry id => .batchExpiry id
  | .jam => .jamExpiry
  | .coldJoint => .coldJointExpiry
  | .refusal => .refusalExpiry
  | .holdEnd _ => .holdEndExpiry
  | .seat _ => .seatExpiry
  | .creep _ _ => .creepExpiry
  | .suspension _ => .suspensionExpiry

/-- A mark's own command accepts its name. -/
theorem exec_command (n : MarkName) :
    ∃ accepts : MarkName → Bool, accepts n = true ∧
      ∀ s, exec n.command s = .next (s.whenPowered fun u => u.expireHead accepts) := by
  cases n with
  | staleness panel => exact ⟨fun n => n == .staleness panel, beq_self_eq_true _, fun _ => rfl⟩
  | expiry id => exact ⟨fun n => n == .expiry id, beq_self_eq_true _, fun _ => rfl⟩
  | _ => exact ⟨_, rfl, fun _ => rfl⟩

/-- A due head expires by its own command. -/
theorem exec_command_due {s : State} {m : Mark} {rest : List Mark} (hp : s.powered = true)
    (hm : s.marks = m :: rest) (hd : m.due ≤ s.clock.time) :
    exec m.name.command s = .next (State.expired m.name { s with marks := rest }) := by
  obtain ⟨accepts, ha, he⟩ := exec_command m.name
  rw [he, State.whenPowered_pos hp, State.expireHead_due hm hd ha]

end Sys2Proof.Machine

namespace Sys2Proof.Proofs

open Sys2Proof.Machine

/-- Settles O13: a due head expires by its command or before another; the expiries that a state has
left bound how many there are. -/
theorem dueMarksExpireFirst : Obligations.DueMarksExpireFirst := by
  refine ⟨fun c s => ?_, fun s m rest hp hm hd => ⟨?_, State.expireDue_cons hp hm hd⟩,
    fun s hp => ?_, fun s hm => ?_, fun s m rest hm hd => ?_⟩
  · cases he : isExpiry c with
    | true => cases c <;> cases he <;> exact exec_expiry_noneDue rfl
    | false => cases c <;> cases he <;> exact exec_expireDue rfl s
  · exact exec_command_due hp hm hd
  · obtain ⟨hclock, hpowered, -⟩ := State.expireDue_within hp
    exact ⟨State.noneDue_expireDue hp, hclock, hpowered.trans hp⟩
  · exact State.expireDue_noneDue (by simp [State.noneDue, hm])
  · exact State.expireDue_noneDue (by simpa [State.noneDue_cons hm] using hd)

end Sys2Proof.Proofs
end

section
/-! SUPPORT. The measurement unit's commands: what each hands on with no mark due, the rounding of its
conversions, and what the unit keeps of a sample whatever the engines make of it. -/

namespace Sys2Proof.Machine

/-! ## The commands of the unit with no mark due -/

/-- A command that a powered part handles after the due marks acts on the state as it is when no mark
is due. -/
theorem exec_of_noneDue {c : Instr} {f : State → State} {s : State} (hp : s.powered = true)
    (hd : s.noneDue = true) (he : exec c s = .next (s.expireDue.whenPowered f)) :
    exec c s = .next (f s) := by
  rw [he, State.expireDue_noneDue hd, State.whenPowered_pos hp]

theorem exec_tensionSample {s : State} (hp : s.powered = true) (hd : s.noneDue = true)
    (code : BitVec 12) : exec (.tensionSample code) s =
      .next (State.winchSample (s.sampleOf s.settings.tensionFs code) s.paidLength
        { s with meas := { s.meas with
          tension := some (s.sampleOf s.settings.tensionFs code) } }) :=
  (exec_of_noneDue hp hd rfl).trans rfl

theorem exec_groutSample {s : State} (hp : s.powered = true) (hd : s.noneDue = true)
    (code : BitVec 12) : exec (.groutSample code) s =
      .next (State.groutSample (s.sampleOf s.settings.groutFs code)
        { s with meas := { s.meas with grout := some (s.sampleOf s.settings.groutFs code) } }) :=
  (exec_of_noneDue hp hd rfl).trans rfl

theorem exec_jackSample {s : State} (hp : s.powered = true) (hd : s.noneDue = true)
    (code : BitVec 12) : exec (.jackSample code) s =
      .next (State.stressSample (s.jackView (s.jackSampleOf code))
        { s with meas := { s.meas with jack := some (s.jackSampleOf code) } }) :=
  (exec_of_noneDue hp hd rfl).trans rfl

theorem exec_countStep {s : State} (hp : s.powered = true) (hd : s.noneDue = true)
    (enc : Encoder) (pair : PhasePair) :
    exec (.countStep enc pair) s = .next (s.countStep enc pair) :=
  (exec_of_noneDue hp hd rfl).trans rfl

theorem exec_strokeTimerTick {s : State} (hp : s.powered = true) (hd : s.noneDue = true) :
    exec .strokeTimerTick s = .next { s with meas := { s.meas with
      strokeTimer := s.meas.strokeTimer.map (satSucc 65535) } } :=
  (exec_of_noneDue hp hd rfl).trans rfl

/-! ## Stroke edges (R53) -/

/-- The first edge, and an edge at or above the minimum interval, is a stroke. -/
theorem exec_strokeEdge_accepted {s : State} (hp : s.powered = true) (hd : s.noneDue = true)
    (h : s.meas.strokeTimer = none ∨ ∃ t, s.meas.strokeTimer = some t ∧ s.settings.minStroke ≤ t) :
    exec .strokeEdge s = .next (s.acceptStroke s.meas.strokeTimer) := by
  refine (exec_of_noneDue hp hd rfl).trans ?_
  rcases h with h | ⟨t, h, hle⟩
  · simp only [h]
  · simp only [h, if_pos hle]

/-- An edge below the minimum interval is bounce. -/
theorem exec_strokeEdge_bounce {s : State} {t : Nat} (hp : s.powered = true)
    (hd : s.noneDue = true) (h : s.meas.strokeTimer = some t) (hlt : t < s.settings.minStroke) :
    exec .strokeEdge s =
      .next { s with meas := { s.meas with bounce := satSucc 65535 s.meas.bounce } } := by
  refine (exec_of_noneDue hp hd rfl).trans ?_
  simp only [h, if_neg (Nat.not_le.mpr hlt)]

/-! ## Rounding (R41) -/

/-- A rounded quotient by its product with the divisor: at most half a divisor above the dividend, less
than half a divisor below it. -/
theorem roundDivNat_bounds (a : Nat) {b : Nat} (hb : 0 < b) :
    2 * (roundDivNat a b * b) ≤ 2 * a + b ∧ 2 * a < 2 * (roundDivNat a b * b) + b := by
  have hdiv : 2 * b * roundDivNat a b + (2 * a + b) % (2 * b) = 2 * a + b := Nat.div_add_mod _ _
  have hmod : (2 * a + b) % (2 * b) < 2 * b := Nat.mod_lt _ (by omega)
  have hprod : 2 * b * roundDivNat a b = 2 * (roundDivNat a b * b) := by ring
  omega

/-- A rounded quotient is a nearest one, and a half goes away from zero. -/
theorem roundDiv_nearest (a : Int) {b : Nat} (hb : 0 < b) :
    2 * (roundDiv a b * b - a).natAbs ≤ b ∧
      (2 * (roundDiv a b * b - a).natAbs = b → a.natAbs < (roundDiv a b * b).natAbs) := by
  obtain ⟨hle, hlt⟩ := roundDivNat_bounds a.natAbs hb
  unfold roundDiv
  generalize hq : roundDivNat a.natAbs b * b = q at hle hlt
  have hcast : (roundDivNat a.natAbs b : Int) * b = q := by exact_mod_cast hq
  split
  · rw [neg_mul, hcast]
    omega
  · rw [hcast]
    omega

/-! ## Conversions (R45, R46) -/

/-- A code is scaled to the nearest value, and no code lies exactly between two, 4095 being odd. -/
theorem scaleCode_nearest (code fullScale : Nat) :
    2 * ((scaleCode code fullScale * 4095 : Int) - code * fullScale).natAbs < 4095 := by
  obtain ⟨hle, hlt⟩ := roundDivNat_bounds (code * fullScale) (b := 4095) (by omega)
  have hprod : ((code * fullScale : Nat) : Int) = code * fullScale := Nat.cast_mul _ _
  rw [← hprod]
  unfold scaleCode
  omega

/-- A code of twelve bits is scaled within the full scale. -/
theorem scaleCode_le {code : Nat} (h : code ≤ 4095) (fullScale : Nat) :
    scaleCode code fullScale ≤ fullScale := by
  obtain ⟨hle, -⟩ := roundDivNat_bounds (code * fullScale) (b := 4095) (by omega)
  have hmul : code * fullScale ≤ 4095 * fullScale := Nat.mul_le_mul_right _ h
  unfold scaleCode
  omega

/-- The highest code is scaled to the full scale. -/
theorem scaleCode_top (fullScale : Nat) : scaleCode 4095 fullScale = fullScale := by
  obtain ⟨hle, hlt⟩ := roundDivNat_bounds (4095 * fullScale) (b := 4095) (by omega)
  unfold scaleCode
  omega

theorem jackLoad_nearest (c : Settings) (p : Nat) :
    2 * ((jackLoad c p * 10000000 : Int) - p * c.ramArea * c.efficiency).natAbs ≤ 10000000 := by
  obtain ⟨hle, hlt⟩ :=
    roundDivNat_bounds (p * c.ramArea * c.efficiency) (b := 10000000) (by omega)
  have hprod : ((p * c.ramArea * c.efficiency : Nat) : Int) = p * c.ramArea * c.efficiency := by
    push_cast
    rfl
  rw [← hprod]
  unfold jackLoad
  omega

/-- What the unit keeps of a code under a full scale: its value, and the over-range indication. -/
theorem State.sampleOf_scaled (fullScale : Nat) (code : BitVec 12) (s : State) :
    2 * (((s.sampleOf fullScale code).value * 4095 : Int) - code.toNat * fullScale).natAbs < 4095 ∧
      (s.sampleOf fullScale code).value ≤ fullScale ∧
      (code.toNat = 4095 → (s.sampleOf fullScale code).value = fullScale) ∧
      (s.sampleOf fullScale code).saturated = decide (code.toNat = 4095) := by
  have hcode : code.toNat ≤ 4095 := Nat.le_of_lt_succ code.isLt
  refine ⟨scaleCode_nearest _ _, scaleCode_le hcode _, fun htop => ?_, beq_eq_decide _ _⟩
  show scaleCode code.toNat fullScale = fullScale
  rw [htop, scaleCode_top]

/-! ## What the grout engine leaves of the unit -/

@[simp] theorem State.timeBreak_meas (s : State) : s.timeBreak.meas = s.meas := by
  unfold State.timeBreak
  split <;> rfl

@[simp] theorem State.pauseGrout_meas (r : PauseReason) (s : State) :
    (s.pauseGrout r).meas = s.meas := State.timeBreak_meas _

@[simp] theorem State.pump_meas (s : State) : s.pump.meas = s.meas := rfl

@[simp] theorem State.holdRefusal_meas (s : State) : s.holdRefusal.meas = s.meas := rfl

@[simp] theorem State.leaveRefusal_meas (s : State) : s.leaveRefusal.meas = s.meas := by
  simp only [State.leaveRefusal]
  split
  · exact State.pauseGrout_meas _ _
  · rfl

@[simp] theorem State.groutPressure_meas (x : Sample) (s : State) :
    (s.groutPressure x).meas = s.meas := by
  simp only [State.groutPressure, apply_ite State.meas, State.raise_meas, State.pauseGrout_meas,
    State.holdRefusal_meas, State.leaveRefusal_meas, ite_self]

@[simp] theorem State.groutSample_meas (x : Sample) (s : State) : (s.groutSample x).meas = s.meas := by
  simp only [State.groutSample, apply_ite State.meas, State.groutPressure_meas, ite_self]

/-! ## What the stress engine leaves of the latest jack sample -/

/-- A duty that is written only when it differs leaves the unit. -/
@[simp] theorem State.drive_meas (v : Valve) (d : Nat) (s : State) : (s.drive v d).meas = s.meas := by
  simp only [State.drive, apply_ite State.meas, State.writeDuty_meas, ite_self]

@[simp] theorem State.endMakeUp_meas (s : State) : s.endMakeUp.meas = s.meas := by
  simp only [State.endMakeUp, apply_ite State.meas, State.writeDuty_meas, ite_self]

@[simp] theorem State.makeUp_meas (level load : Nat) (s : State) :
    (s.makeUp level load).meas = s.meas := by
  simp only [State.makeUp, apply_ite State.meas, State.writeDuty_meas, State.endMakeUp_meas, ite_self]

@[simp] theorem State.abortedEnd_meas (code : TestCode) (counted : Bool) (s : State) :
    (s.abortedEnd code counted).meas = s.meas := by
  unfold State.abortedEnd
  split <;> rfl

@[simp] theorem State.evaluatedEnd_meas (result : TestCode) (s : State) :
    (s.evaluatedEnd result).meas = s.meas := by
  unfold State.evaluatedEnd
  split <;> rfl

@[simp] theorem State.endTest_meas (code : TestCode) (counted : Bool) (s : State) :
    (s.endTest code counted).meas = s.meas := by
  simp only [State.endTest, State.raise_meas, apply_ite State.meas, State.abortedEnd_meas,
    State.evaluatedEnd_meas, State.stopJack_meas, ite_self]

@[simp] theorem State.abortTest_meas (code : TestCode) (s : State) :
    (s.abortTest code).meas = s.meas := by
  simp only [State.abortTest, State.endWaiting, State.enterUnloading_eq, apply_ite State.meas,
    State.endTest_meas, State.releaseFlow_meas, ite_self]

@[simp] theorem State.releaseSample_meas (load : Nat) (s : State) :
    (s.releaseSample load).meas = s.meas := by
  unfold State.releaseSample
  split
  · split
    · exact State.endTest_meas _ _ _
    · rfl
  · split
    · rfl
    · exact State.drive_meas _ _ _

@[simp] theorem State.insertHoldMarks_meas (i : Nat) (st : Step) (t : SiteTime) (s : State) :
    (s.insertHoldMarks i st t).meas = s.meas := by
  simp only [State.insertHoldMarks, State.insertCreepMarks, apply_ite State.meas,
    State.insertMark_meas, ite_self]

@[simp] theorem State.reachTarget_meas (s : State) : s.reachTarget.meas = s.meas := by
  simp only [State.reachTarget]
  split
  · exact State.insertHoldMarks_meas _ _ _ _
  · rfl

@[simp] theorem State.rampSample_meas (load : Nat) (s : State) :
    (s.rampSample load).meas = s.meas := by
  unfold State.rampSample
  split
  · exact State.reachTarget_meas s
  · exact State.drive_meas _ _ _

@[simp] theorem State.scheduleSample_meas (v : JackView) (s : State) :
    (s.scheduleSample v).meas = s.meas := by
  unfold State.scheduleSample
  split
  · exact State.rampSample_meas _ s
  · exact State.makeUp_meas _ _ s
  · exact State.makeUp_meas _ _ s
  · rfl

@[simp] theorem State.raiseIf_meas (b : Bool) (e : Event) (s : State) :
    (s.raiseIf b e).meas = s.meas := by
  cases b <;> rfl

/-- The end of a lock-off unsets the compare, and leaves the rest of the unit. -/
@[simp] theorem State.endLockOff_meas (result : TestCode) (s : State) :
    (s.endLockOff result).meas = { s.meas with compare := none } := by
  simp only [State.endLockOff]
  split <;> rfl

@[simp] theorem State.decideLift_jack (residual : Nat) (s : State) :
    (s.decideLift residual).meas.jack = s.meas.jack := by
  unfold State.decideLift
  split
  · rw [State.endLockOff_meas]
  · split
    · rfl
    · rw [State.endLockOff_meas]

@[simp] theorem State.lockRampSample_meas (load : Nat) (s : State) :
    (s.lockRampSample load).meas = s.meas := by
  unfold State.lockRampSample
  split
  · rfl
  · exact State.drive_meas _ _ _

@[simp] theorem State.seatingSample_meas (load : Nat) (s : State) :
    (s.seatingSample load).meas = s.meas := by
  unfold State.seatingSample
  split
  · rfl
  · split
    · rfl
    · exact State.drive_meas _ _ _

@[simp] theorem State.liftSample_jack (v : JackView) (s : State) :
    (s.liftSample v).meas.jack = s.meas.jack := by
  unfold State.liftSample
  split
  · exact State.decideLift_jack _ _
  · rfl

@[simp] theorem State.lockSample_jack (v : JackView) (s : State) :
    (s.lockSample v).meas.jack = s.meas.jack := by
  unfold State.lockSample
  split
  · split
    · rw [State.lockRampSample_meas]
    · rw [State.seatingSample_meas]
    · exact State.liftSample_jack v s
    · rfl
  · rfl

@[simp] theorem State.actOnSample_jack (v : JackView) (s : State) :
    (s.actOnSample v).meas.jack = s.meas.jack := by
  unfold State.actOnSample
  split
  case h_1 => rfl
  case h_2 | h_3 | h_4 | h_5 => split <;> simp
  case h_6 | h_7 | h_8 => split <;> simp
  case h_9 | h_10 => rw [State.releaseSample_meas]

@[simp] theorem State.stressSample_jack (v : JackView) (s : State) :
    (s.stressSample v).meas.jack = s.meas.jack := by
  unfold State.stressSample
  split
  · rfl
  · exact State.actOnSample_jack v _

end Sys2Proof.Machine

namespace Sys2Proof.Proofs

open Sys2Proof.Machine

/-- Settles O21: an edge by the stroke timer, a tick by whether the timer runs. -/
theorem strokeEdgesAndTimer : Obligations.StrokeEdgesAndTimer := by
  refine ⟨fun s hp hd h => exec_strokeEdge_accepted hp hd h,
    fun s t hp hd h hlt => exec_strokeEdge_bounce hp hd h hlt, fun s t hp hd h => ?_,
    fun s hp hd h => ?_⟩
  · rw [exec_strokeTimerTick hp hd, h]
    rfl
  · have hsame : s.meas.strokeTimer.map (satSucc 65535) = s.meas.strokeTimer := by rw [h]; rfl
    rw [exec_strokeTimerTick hp hd, hsame]

/-- Settles O29: the bounds of a rounded quotient; the unit's conversions are two such quotients, and
the engines leave the sample that the unit keeps. -/
theorem conversionsRoundOnce : Obligations.ConversionsRoundOnce := by
  refine ⟨fun a b hb => roundDiv_nearest a hb, fun code s hp hd => ?_, fun code s hp hd => ?_⟩
  · obtain ⟨hnear, hle, htop, hsat⟩ := s.sampleOf_scaled s.settings.groutFs code
    exact ⟨_, s.sampleOf s.settings.groutFs code, exec_groutSample hp hd code,
      by rw [State.groutSample_meas], hnear, hle, htop, hsat, rfl, rfl⟩
  · obtain ⟨hnear, hle, htop, hsat⟩ := s.sampleOf_scaled s.settings.jackFs code
    exact ⟨_, s.jackSampleOf code, exec_jackSample hp hd code, State.stressSample_jack _ _, hnear,
      hle, htop, jackLoad_nearest s.settings _, hsat, rfl, rfl⟩

end Sys2Proof.Proofs
end

section
/-! SUPPORT. COUNT_STEP and JACK_SAMPLE: the moves of an encoder, the lift-off compare, and the limit
checks of a jack sample by the engine's state. -/

namespace Sys2Proof.Machine

/-! ## The moves of an encoder (R48, R49) -/

@[simp] theorem phaseMove_self (q : PhasePair) : phaseMove q q = .still := if_pos rfl

/-- The next pair of the sequence is a step up. -/
@[simp] theorem phaseMove_nextPair (q : PhasePair) : phaseMove q (nextPair q) = .up := by
  obtain ⟨a, b⟩ := q
  cases a <;> cases b <;> rfl

/-- The pair before in the sequence is a step down. -/
theorem phaseMove_of_nextPair {old new : PhasePair} (h : nextPair new = old) :
    phaseMove old new = .down := by
  subst h
  obtain ⟨a, b⟩ := new
  cases a <;> cases b <;> rfl

/-- The pair that an encoder shows already changes nothing. -/
theorem State.countStep_still (enc : Encoder) (s : State) :
    s.countStep enc (s.meas.encoder enc).pair = s := by
  cases enc <;> simp [State.countStep, Meas.moveEncoder, Meas.encoder, EncoderState.move]

theorem State.countStep_drum_up (s : State) :
    s.countStep .drum (nextPair s.meas.drum.pair) =
      { s with meas := { s.meas with drum := { s.meas.drum with
        count := s.meas.drum.count + 1, pair := nextPair s.meas.drum.pair } } } := by
  simp [State.countStep, Meas.moveEncoder, Meas.encoder, EncoderState.move]

theorem State.countStep_drum_down {pair : PhasePair} {s : State}
    (h : nextPair pair = s.meas.drum.pair) :
    s.countStep .drum pair = { s with meas := { s.meas with
      drum := { s.meas.drum with count := s.meas.drum.count - 1, pair := pair } } } := by
  simp [State.countStep, Meas.moveEncoder, Meas.encoder, EncoderState.move,
    phaseMove_of_nextPair h]

theorem State.countStep_ram_down {pair : PhasePair} {s : State}
    (h : nextPair pair = s.meas.ram.pair) :
    s.countStep .ram pair = { s with meas := { s.meas with
      ram := { s.meas.ram with count := s.meas.ram.count - 1, pair := pair } } } := by
  simp [State.countStep, Meas.moveEncoder, Meas.encoder, EncoderState.move,
    phaseMove_of_nextPair h]

/-- A step up of the ram is counted, and the compare is checked at the displacement it leads to. -/
theorem State.countStep_ram_up (s : State) :
    s.countStep .ram (nextPair s.meas.ram.pair) =
      State.checkCompare { s with meas := { s.meas with ram := { s.meas.ram with
        count := s.meas.ram.count + 1, pair := nextPair s.meas.ram.pair } } } := by
  simp [State.countStep, Meas.moveEncoder, Meas.encoder, EncoderState.move]

/-- Both phases of the drum at once: a fault is counted and raised, and stops a placement that runs or
waits for flow (R49, R102). -/
theorem State.countStep_drum_fault {pair : PhasePair} {s : State}
    (h : phaseMove s.meas.drum.pair pair = .fault) :
    s.countStep .drum pair = State.winchEncoderFault
      { s with
        meas := { s.meas with drum := { s.meas.drum with
          pair := pair, faults := satSucc 255 s.meas.drum.faults } }
        ports := s.ports.raise .encoderFault } := by
  simp [State.countStep, Meas.moveEncoder, Meas.encoder, EncoderState.move, State.encoderFault,
    State.raise, h]

/-- Both phases of the ram at once: a fault is counted and raised, and ends what the stress engine does
with the ram (R49, R152, R164). -/
theorem State.countStep_ram_fault {pair : PhasePair} {s : State}
    (h : phaseMove s.meas.ram.pair pair = .fault) :
    s.countStep .ram pair = State.stressEncoderFault
      { s with
        meas := { s.meas with ram := { s.meas.ram with
          pair := pair, faults := satSucc 255 s.meas.ram.faults } }
        ports := s.ports.raise .encoderFault } := by
  simp [State.countStep, Meas.moveEncoder, Meas.encoder, EncoderState.move, State.encoderFault,
    State.raise, h]

/-! ## The lift-off compare (R55) -/

theorem State.crossing_some {s : State} {point : Int} (h : s.meas.compare = some point) :
    s.crossing = decide (point ≤ s.displacement) := by
  simp only [State.crossing, h]

theorem State.checkCompare_unset {s : State} (h : s.meas.compare = none) : s.checkCompare = s := by
  simp [State.checkCompare, State.crossing, h]

theorem State.checkCompare_below {s : State} {point : Int} (h : s.meas.compare = some point)
    (hlt : s.displacement < point) : s.checkCompare = s := by
  simp [State.checkCompare, State.crossing_some h, Int.not_le.mpr hlt]

/-- At or above its point the compare becomes unset and hands the latest jack sample on. -/
theorem State.checkCompare_reached {s : State} {point : Int} (h : s.meas.compare = some point)
    (hle : point ≤ s.displacement) :
    s.checkCompare = { s with
      meas := { s.meas with compare := none }
      deliveries := s.deliveries ++ (s.meas.jack.map Delivery.capture).toList } := by
  cases hj : s.meas.jack <;>
    simp [State.checkCompare, State.crossing_some h, hle, hj, State.unsetCompare, State.send]

/-! ## The limit checks of a jack sample (R137) -/

theorem State.limitFailed_overrange {v : JackView} {s : State} (h : v.saturated = true) :
    s.limitFailed v = some (.abortedOverrange, true) := by
  simp [State.limitFailed, h]

theorem State.limitFailed_overpressure {v : JackView} {s : State} (h : v.saturated = false)
    (hp : s.settings.jackMax < v.pressure) :
    s.limitFailed v = some (.abortedOverpressure, true) := by
  simp [State.limitFailed, h, hp]

theorem State.limitFailed_stroke {v : JackView} {s : State} (h : v.saturated = false)
    (hp : v.pressure ≤ s.settings.jackMax) (ht : s.settings.ramStroke * 100 < v.travel.natAbs) :
    s.limitFailed v = some (.abortedStroke, false) := by
  simp [State.limitFailed, h, Nat.not_lt.mpr hp, ht]

/-! ## A jack sample by the engine's state (R137, R149, R164) -/

/-- An IDLE engine ignores the sample that the unit keeps. -/
theorem exec_jackSample_idle {s : State} (hp : s.powered = true) (hd : s.noneDue = true)
    (code : BitVec 12) (h : s.stress.state = .idle) : exec (.jackSample code) s =
      .next { s with meas := { s.meas with jack := some (s.jackSampleOf code) } } :=
  (exec_jackSample hp hd code).trans (congrArg _ (if_pos h))

/-- Any other engine keeps the sample too, and acts on it. -/
theorem exec_jackSample_kept {s : State} (hp : s.powered = true) (hd : s.noneDue = true)
    (code : BitVec 12) (h : s.stress.state ≠ .idle) : exec (.jackSample code) s =
      .next (State.actOnSample (s.jackView (s.jackSampleOf code))
        { s with
          meas := { s.meas with jack := some (s.jackSampleOf code) }
          stress := { s.stress with latest := some (s.jackView (s.jackSampleOf code)) } }) :=
  (exec_jackSample hp hd code).trans (congrArg _ (if_neg h))

/-- Before acceptance a limit check that fails aborts the test (R137). -/
theorem State.actOnSample_aborts {v : JackView} {s : State} {r : TestCode × Bool}
    (h : s.stress.state = .waitFlow ∨ s.stress.state = .stepRamp ∨ s.stress.state = .stepHold ∨
      s.stress.state = .suspended) (hr : s.limitFailed v = some r) :
    s.actOnSample v = (s.abortTest r.1).raiseIf r.2 .channelTrip := by
  rcases h with h | h | h | h <;> simp only [State.actOnSample, h, hr]

/-- In the lock-off a limit check that fails ends it incomplete (R164). -/
theorem State.actOnSample_endsLockOff {v : JackView} {s : State} {r : TestCode × Bool}
    (h : s.stress.state = .lockRamp ∨ s.stress.state = .seating ∨ s.stress.state = .liftCheck)
    (hr : s.limitFailed v = some r) :
    s.actOnSample v = (s.endLockOff .lockoffIncomplete).raiseIf r.2 .channelTrip := by
  rcases h with h | h | h <;> simp only [State.actOnSample, h, hr]

/-- While the jack is released a sample is only watched for the end of the release (R149, R164). -/
theorem State.actOnSample_releasing {v : JackView} {s : State}
    (h : s.stress.state = .unloading ∨ s.stress.state = .finalRelease) :
    s.actOnSample v = s.releaseSample v.load := by
  rcases h with h | h <;> simp only [State.actOnSample, h]

/-- A load at or below the approach band ends the test with its pending end. -/
theorem State.releaseSample_ends {load : Nat} {s : State} {e : TestCode}
    (hl : load ≤ s.settings.approachBand) (he : s.stress.pendingEnd = some e) :
    s.releaseSample load = s.endTest e true := by
  simp only [State.releaseSample, if_pos hl, he]

/-- Above the approach band the jack goes on being released, unless the engine waits for the end of a
trip. -/
theorem State.releaseSample_above {load : Nat} {s : State} (hl : s.settings.approachBand < load) :
    s.releaseSample load =
      if s.stress.tripWait = true ∨ s.supply.latched = true ∨
          s.outputs.jackRelease.set = s.settings.rampDuty then s
      else { s with outputs := s.outputs.write .jackRelease (min s.settings.rampDuty 1000) } := by
  simp only [State.releaseSample, if_neg (Nat.not_le.mpr hl), State.drive,
    State.writeDuty_jack (v := .jackRelease) rfl, Outputs.get]
  cases hw : s.stress.tripWait <;> cases ht : s.supply.latched <;>
    by_cases hd : s.outputs.jackRelease.set = s.settings.rampDuty <;> simp [hd]

end Sys2Proof.Machine

namespace Sys2Proof.Proofs

open Sys2Proof.Machine

/-- Settles O30: each pair by the move it is, a step up of the ram by the compare, and a fault by the
engine that it reaches. -/
theorem countStepsMoveCounters : Obligations.CountStepsMoveCounters := by
  refine ⟨fun enc s hp hd => ?_, fun s hp hd => ?_, fun pair s hp hd h => ?_,
    fun pair s hp hd h => ?_, fun s u hp hd hu => ?_, fun pair s u hp hd h hu => ?_,
    fun pair s u hp hd h hu => ?_⟩
  · rw [exec_countStep hp hd, State.countStep_still]
  · rw [exec_countStep hp hd, State.countStep_drum_up]
  · rw [exec_countStep hp hd, State.countStep_drum_down h]
  · rw [exec_countStep hp hd, State.countStep_ram_down h]
  · have hup : exec (.countStep .ram (nextPair s.meas.ram.pair)) s = .next u.checkCompare := by
      rw [exec_countStep hp hd, State.countStep_ram_up, hu]
    have hcompare : u.meas.compare = s.meas.compare := by rw [hu]
    have hjack : u.meas.jack = s.meas.jack := by rw [hu]
    have hdeliveries : u.deliveries = s.deliveries := by rw [hu]
    rw [hup]
    refine ⟨fun hc => ?_, fun point hc => ⟨fun hlt => ?_, fun x hle hx => ?_, fun hle hx => ?_⟩⟩
    · rw [State.checkCompare_unset (hcompare.trans hc)]
    · rw [State.checkCompare_below (hcompare.trans hc) hlt]
    · rw [State.checkCompare_reached (hcompare.trans hc) hle, hjack, hx, hdeliveries]
      rfl
    · rw [State.checkCompare_reached (hcompare.trans hc) hle, hjack, hx]
      simp
  · have hstate : u.winch.state = s.winch.state := by rw [hu]
    rw [exec_countStep hp hd, State.countStep_drum_fault h, ← hu]
    cases hs : s.winch.state <;> simp only [State.winchEncoderFault, hstate, hs]
  · have hstate : u.stress.state = s.stress.state := by rw [hu]
    rw [exec_countStep hp hd, State.countStep_ram_fault h, ← hu]
    cases hs : s.stress.state <;> simp only [State.stressEncoderFault, hstate, hs]

/-- Settles O35: a sample by the engine's state, then by the first limit check that it fails or by the
approach band. -/
theorem jackSamplesAndLimits : Obligations.JackSamplesAndLimits := by
  intro code s u x v hp hd hx hv hu
  have hkept (h : s.stress.state ≠ .idle) :
      exec (.jackSample code) s = .next (u.actOnSample v) := by
    rw [hu, hv, hx]
    exact exec_jackSample_kept hp hd code h
  have hsat : v.saturated = x.saturated := by rw [hv]; rfl
  have hval : v.pressure = x.value := by rw [hv]; rfl
  have hload : v.load = x.load := by rw [hv]; rfl
  have hstate : u.stress.state = s.stress.state := by rw [hu]
  have hlimit : u.limitFailed v = s.limitFailed v := by rw [hu]; rfl
  refine ⟨fun h => ?_, fun h => ?_, fun h => ?_, fun h => ?_⟩
  · rw [hx]
    exact exec_jackSample_idle hp hd code h
  · have hne : s.stress.state ≠ .idle := by
      rintro hi
      simp [hi] at h
    rw [← hstate] at h
    refine ⟨fun h1 => ?_, fun h1 h2 => ?_, fun h1 h2 h3 => ?_⟩
    · have hr := hlimit.trans (State.limitFailed_overrange (hsat.trans h1))
      rw [hkept hne, State.actOnSample_aborts h hr]
      rfl
    · have hr := hlimit.trans
        (State.limitFailed_overpressure (hsat.trans h1) (h2.trans_eq hval.symm))
      rw [hkept hne, State.actOnSample_aborts h hr]
      rfl
    · have hr := hlimit.trans
        (State.limitFailed_stroke (hsat.trans h1) (hval.trans_le h2) h3)
      rw [hkept hne, State.actOnSample_aborts h hr]
      rfl
  · have hne : s.stress.state ≠ .idle := by
      rintro hi
      simp [hi] at h
    rw [← hstate] at h
    refine ⟨fun h1 => ?_, fun h1 h2 h3 => ?_⟩
    · obtain ⟨code, hr⟩ : ∃ code, u.limitFailed v = some (code, true) := by
        cases hs : x.saturated with
        | true => exact ⟨_, hlimit.trans (State.limitFailed_overrange (hsat.trans hs))⟩
        | false =>
          have h2 : s.settings.jackMax < x.value := h1.resolve_left (by simp [hs])
          exact ⟨_, hlimit.trans
            (State.limitFailed_overpressure (hsat.trans hs) (h2.trans_eq hval.symm))⟩
      rw [hkept hne, State.actOnSample_endsLockOff h hr]
      rfl
    · have hr := hlimit.trans
        (State.limitFailed_stroke (hsat.trans h1) (hval.trans_le h2) h3)
      rw [hkept hne, State.actOnSample_endsLockOff h hr]
      rfl
  · have hne : s.stress.state ≠ .idle := by
      rintro hi
      simp [hi] at h
    rw [← hstate] at h
    refine ⟨fun e hl he => ?_, fun hl => ?_⟩
    · have hband : v.load ≤ u.settings.approachBand := by rw [hu]; exact hload.trans_le hl
      have hend : u.stress.pendingEnd = some e := by rw [hu]; exact he
      rw [hkept hne, State.actOnSample_releasing h, State.releaseSample_ends hband hend]
    · have hband : u.settings.approachBand < v.load := by rw [hu]; exact hl.trans_eq hload.symm
      rw [hkept hne, State.actOnSample_releasing h, State.releaseSample_above hband, hu]

end Sys2Proof.Proofs
end

section
/-! SUPPORT. TENSION_SAMPLE and GROUT_SAMPLE: what the two engines make of a sample, by the engine's
state. -/

namespace Sys2Proof.Machine

/-! ## The winch engine's parts of a sample (R96, R97, R98) -/

/-- The end of a completed placement (R97). -/
theorem State.completePlacement_eq {s : State} {pos : Position} (h : s.winch.anchor = some pos)
    (paid : Int) : s.completePlacement paid =
      { s with
        outputs := if s.supply.latched = true then s.outputs else
          { s.outputs with winch := { s.outputs.winch with set := 0, driven := 0 } }
        marks := if s.winch.jamTiming = true then s.marks.filter (fun m => m.name != .jam)
          else s.marks
        deliveries := s.deliveries ++ [.release .winch]
        register := { s.register with
          records := s.register.records.map fun b =>
            if b.pos = pos then
              if b.state = .placing then
                { b with
                  state := .placed, work := none
                  placement := some ⟨some (paid, s.clock.time / 1024), s.winch.jamCount,
                    (b.placement.map Placement.aborts).getD 0⟩ }
              else b
            else b }
        winch :=
          { state := .idle, reason := none, anchor := none, slowBoundary := none
            jamCount := s.winch.jamCount, paid := 0, tension := 0, jamTiming := false }
        ports := s.ports.raise .winchEnd } := by
  simp only [State.completePlacement, State.writeDuty_winch_zero, State.stopJamTiming_eq,
    State.onWinchAnchor, State.releaseFlow, State.send, h, State.modifyAnchor, Register.modify,
    Anchor.placed, Anchor.placementPart_aborts, Winch.letGo, State.raise, State.nowSeconds,
    secondsOf]

/-- The slow boundary: a placement in RUN that reaches it goes slow (R96). -/
theorem State.enterSlow_eq (paid : Int) (s : State) : s.enterSlow paid =
    { s with
      outputs :=
        if (s.winch.state = .run ∧ (s.winch.slowBoundary.getD 0 : Int) ≤ paid) ∧
            s.supply.latched = false then
          s.outputs.write .winch (min s.settings.slowDuty 1000) else s.outputs
      winch := { s.winch with
        state := if s.winch.state = .run ∧ (s.winch.slowBoundary.getD 0 : Int) ≤ paid then .slow
          else s.winch.state } } := by
  by_cases h : s.winch.state = .run ∧ (s.winch.slowBoundary.getD 0 : Int) ≤ paid
  · cases ht : s.supply.latched <;> simp [State.enterSlow, State.writeDuty, valveOwner, h, ht]
  · simp [State.enterSlow, h]

/-- The jam check: jam timing follows whether the sample is high, with its mark inserted at the start
and removed at the end (R98). -/
theorem State.jamCheck_eq (x : Sample) (s : State) : s.jamCheck x =
    { s with
      winch := { s.winch with jamTiming := s.jamHigh x }
      marks := if s.jamHigh x = true ∧ s.winch.jamTiming = false then
          placeMark ⟨afterMillis s.clock.time s.settings.jamTime, .jam⟩
            (s.marks.filter fun m => m.name != .jam)
        else if s.jamHigh x = false ∧ s.winch.jamTiming = true then
          s.marks.filter fun m => m.name != .jam
        else s.marks } := by
  unfold State.jamCheck
  cases hh : s.jamHigh x with
  | true =>
    cases ht : s.winch.jamTiming with
    | true =>
      have hw : { s.winch with jamTiming := true } = s.winch := by rw [← ht]
      simp [hw]
    | false => rfl
  | false => simp [State.stopJamTiming_eq]

theorem State.winchReached_eq {s : State} {pos : Position} {a : Anchor}
    (hp : s.winch.anchor = some pos) (ha : s.register.find pos = some a) (paid : Int) :
    s.winchReached paid = decide ((a.design.tendonLength : Int) ≤ paid) := by
  simp [State.winchReached, State.winchLength, hp, ha]

/-! ## A tension sample by the engine's state (R96) -/

theorem State.winchSample_idle {s : State} (h : s.winch.state = .idle) (x : Sample) (paid : Int) :
    s.winchSample x paid = s := if_pos h

theorem State.winchSample_waiting {s : State}
    (h : s.winch.state = .waitFlow ∨ s.winch.state = .stopped) (x : Sample) (paid : Int) :
    s.winchSample x paid = { s with winch := { s.winch with paid := paid, tension := x.value } } := by
  rcases h with h | h <;> simp [State.winchSample, h]

theorem State.winchSample_running {s : State}
    (h : s.winch.state = .run ∨ s.winch.state = .slow) (x : Sample) {paid : Int} {t : State}
    (ht : t = { s with winch := { s.winch with paid := paid, tension := x.value } }) :
    s.winchSample x paid =
      if t.winchReached paid = true then t.completePlacement paid
      else (t.enterSlow paid).jamCheck x := by
  subst ht
  rcases h with h | h <;> simp only [State.winchSample, h, reduceCtorEq, or_true, true_or, if_true,
    if_false]

/-! ## The grout engine's parts of a sample (R123, R124) -/

/-- The entry to REFUSAL_HOLD (R123). -/
theorem State.holdRefusal_eq (s : State) : s.holdRefusal =
    { s with
      outputs := if s.supply.latched = true then s.outputs else
        { s.outputs with pump := { s.outputs.pump with set := 0, driven := 0 } }
      marks := placeMark ⟨afterSeconds s.clock.time s.settings.refusalPeriod, .refusal⟩
        (s.marks.filter fun m => m.name != .refusal)
      grout := { s.grout with state := .refusalHold } } := by
  simp only [State.holdRefusal, State.writeDuty_pump_zero]
  rfl

/-- The entry to PUMPING (R119, R124). -/
theorem State.pump_eq (s : State) : s.pump =
    { s with
      outputs := if s.supply.latched = true then s.outputs
        else s.outputs.write .pump (min s.settings.pumpDuty 1000)
      marks := s.marks.filter fun m => m.name != .coldJoint
      grout := { s.grout with state := .pumping } } := by
  simp [State.pump, State.removeMark, State.writeDuty, valveOwner, dropMark]

/-- The way out of REFUSAL_HOLD at a falling pressure, by the batch queue (R124). -/
theorem State.leaveRefusal_eq (s : State) : s.leaveRefusal =
    if s.batches = [] then
      State.pauseGrout .batch { s with marks := s.marks.filter fun m => m.name != .refusal }
    else State.pump { s with marks := s.marks.filter fun m => m.name != .refusal } := by
  simp only [State.leaveRefusal, State.removeMark, dropMark, List.isEmpty_iff]

/-- What a pressure does in PUMPING and in REFUSAL_HOLD (R123, R124). -/
theorem State.groutPressure_eq {s : State}
    (h : s.grout.state = .pumping ∨ s.grout.state = .refusalHold) (x : Sample) :
    s.groutPressure x =
      if s.settings.groutMax < x.value ∨ x.saturated = true then
        (s.pauseGrout .overpressure).raise .channelTrip
      else if s.settings.refusalPressure ≤ x.value then
        if s.grout.state = .refusalHold then s else s.holdRefusal
      else if x.value * 1000 < s.settings.refusalPressure * 900 ∧
          s.grout.state = .refusalHold then s.leaveRefusal
      else s := by
  unfold State.groutPressure
  rcases h with h | h <;> simp [h]

/-! ## A grout sample by the engine's state (R123) -/

theorem State.groutSample_idle {s : State} (h : s.grout.state = .idle) (x : Sample) :
    s.groutSample x = s := if_pos h

theorem State.groutSample_inBreak {s : State}
    (h : s.grout.state = .waitBatch ∨ s.grout.state = .waitFlow ∨ s.grout.state = .paused)
    (x : Sample) : s.groutSample x =
      { s with grout := { s.grout with latest := some (x.value, x.saturated) } } := by
  rcases h with h | h | h <;> simp [State.groutSample, h]

theorem State.groutSample_pumping {s : State}
    (h : s.grout.state = .pumping ∨ s.grout.state = .refusalHold) (x : Sample) :
    s.groutSample x = State.groutPressure x
      { s with grout := { s.grout with
        latest := some (x.value, x.saturated), peak := max s.grout.peak x.value } } := by
  have hbusy : s.grout.state ≠ .idle := by
    rintro hi
    simp [hi] at h
  rw [State.groutSample, if_neg hbusy, if_pos h]

end Sys2Proof.Machine

namespace Sys2Proof.Proofs

open Sys2Proof.Machine

/-- Settles O16: a sample by the engine's state; in RUN and SLOW by whether the length is reached, then
by the slow boundary and the jam check, each written once. -/
theorem tensionSamples : Obligations.TensionSamples := by
  intro code s x paid hp hd hx hpaid
  obtain ⟨m, hm⟩ : ∃ m : State, m = { s with meas := { s.meas with tension := some x } } := ⟨_, rfl⟩
  have hwinch : m.winch = s.winch := by rw [hm]
  have hexec : exec (.tensionSample code) s = .next (m.winchSample x paid) := by
    rw [hm, hx, hpaid]
    exact exec_tensionSample hp hd code
  rw [hexec, ← hwinch]
  refine ⟨fun h => ?_, fun h => ?_, fun pos a hpos ha h => ?_⟩
  · rw [State.winchSample_idle h, hm]
  · rw [State.winchSample_waiting h, hm]
  · obtain ⟨t, ht⟩ : ∃ t : State,
        t = { m with winch := { m.winch with paid := paid, tension := x.value } } := ⟨_, rfl⟩
    have hanchor : t.winch.anchor = some pos := by rw [ht]; exact hpos
    have hfind : t.register.find pos = some a := by rw [ht, hm]; exact ha
    rw [State.winchSample_running h x ht, State.winchReached_eq hanchor hfind]
    refine ⟨fun hlen => ?_, fun hlen slow high hslow hhigh => ?_⟩
    · rw [if_pos (decide_eq_true hlen), State.completePlacement_eq hanchor, ht, hm]
    · rw [if_neg (by simpa using hlen), State.jamCheck_eq, State.enterSlow_eq, ht, hm]
      simp only [hslow, hhigh, hm, decide_eq_true_eq]
      rfl

/-- Settles O20: a sample by the engine's state; in PUMPING and REFUSAL_HOLD by its pressure. -/
theorem groutSamples : Obligations.GroutSamples := by
  intro code s x hp hd hx
  obtain ⟨m, hm⟩ : ∃ m : State, m = { s with meas := { s.meas with grout := some x } } := ⟨_, rfl⟩
  have hgrout : m.grout = s.grout := by rw [hm]
  have hexec : exec (.groutSample code) s = .next (m.groutSample x) := by
    rw [hm, hx]
    exact exec_groutSample hp hd code
  rw [hexec, ← hgrout]
  refine ⟨fun h => ?_, fun h => ?_, fun h u hu => ?_⟩
  · rw [State.groutSample_idle h, hm]
  · rw [State.groutSample_inBreak h, hm]
  · have hsample : m.groutSample x = u.groutPressure x := by
      rw [State.groutSample_pumping h, hu, hm]
    have hstate : u.grout.state = m.grout.state := by rw [hu]
    rw [← hstate] at h
    rw [hsample, State.groutPressure_eq h, State.holdRefusal_eq, State.leaveRefusal_eq,
      State.pump_eq, hu, hm]
    rfl

end Sys2Proof.Proofs
end

section
/-! SUPPORT. The command at the front of the queue, and a property kept by the shared operations as
one command keeps it. -/

namespace Sys2Proof.Machine

/-- A step runs the command at the front of the queue on the queue's rest. -/
theorem step_cons {s : State} {c : Instr} {rest : List Instr} (h : s.pending = c :: rest) :
    step s = exec c { s with pending := rest } := by
  simp only [step, h]

/-- A property kept by the shared operations is kept by a command, if it is as the command is one of
the four that reach the nonvolatile blocks as a whole. -/
theorem Keeps.exec_of {P : State → Prop} (k : Keeps P) {c : Instr} {s : State} (h : P s)
    (hstart : ∀ cause pins phases run, c = .startUp cause pins phases run →
      After P (Machine.exec c s))
    (hloss : ∀ phases run, c = .powerLoss phases run → After P (Machine.exec c s))
    (hscan : ∀ run, c = .startUpScanDone run → After P (Machine.exec c s))
    (happend : ∀ run, c = .appendCompletion run → After P (Machine.exec c s)) :
    After P (Machine.exec c s) := by
  by_contra hn
  exact hn (k.exec c (fun a b d e hc => hn (hstart a b d e hc)) (fun a b hc => hn (hloss a b hc))
    (fun a hc => hn (hscan a hc)) (fun a hc => hn (happend a hc)) h)

end Sys2Proof.Machine
end

section
/-! SUPPORT. The settings: reading and replacing one by its id, what staging a pair makes of every
setting, and that staged settings stay in range and related. -/

namespace Sys2Proof.Machine

/-! ## A setting by its id (R195) -/

@[simp] theorem Settings.values_length (c : Settings) : c.values.length = 43 := rfl

/-- The values that settings were made of, read back. -/
theorem Settings.values_ofValues {v : List Nat} (h : v.length = 43)
    (ps : List (Option (List Step))) : (Settings.ofValues v ps).values = v := by
  have hv : (Settings.ofValues v ps).values = (List.range 43).map fun i => v.getD i 0 := rfl
  rw [hv]
  refine List.ext_getElem (by simp [h]) fun i hi hi' => ?_
  simp only [List.getElem_map, List.getElem_range]
  exact List.getD_eq_getElem _ _ hi'

/-- A setting replaced is read back, and every other setting reads as before. -/
theorem Settings.get_put {id k : Nat} (hid : 1 ≤ id) (hle : id ≤ 43) (hk : 1 ≤ k) (v : Nat)
    (c : Settings) : (c.put id v).get k = if k = id then v else c.get k := by
  rw [Settings.get, Settings.put, Settings.values_ofValues (by simp)]
  by_cases h : k = id
  · rw [if_pos h, h, List.getD_eq_getElem?_getD,
      List.getElem?_set_self (by rw [Settings.values_length]; omega), Option.getD_some]
  · rw [if_neg h, Settings.get, List.getD_eq_getElem?_getD, List.getElem?_set_ne (by omega),
      List.getD_eq_getElem?_getD]

/-! ## One pair staged (R178) -/

/-- The settings that follow a newly staged one, as settings replaced (R58, R73, R112, R131). -/
theorem Settings.follow_eq (id : Nat) (c : Settings) : c.follow id =
    if id = 1 then c.put 34 (min (c.get 34) (c.get 1))
    else if id = 9 then
      ((c.put 10 (min (c.get 10) (c.get 9))).put 11 (min (c.get 11) (c.get 9))).put 12
        (min (c.get 12) (c.get 9))
    else if id = 15 then c.put 16 (max (c.get 16) (c.get 15 + 1))
    else if id = 27 then c.put 29 (max (c.get 29) (c.get 27 + 100))
    else c := rfl

/-- What a setting k becomes as a value w is staged for another one (R58, R73, R112, R131). -/
def followed (id w k x : Nat) : Nat :=
  if id = 1 ∧ k = 34 then min x w
  else if id = 9 ∧ (k = 10 ∨ k = 11 ∨ k = 12) then min x w
  else if id = 15 ∧ k = 16 then max x (w + 1)
  else if id = 27 ∧ k = 29 then max x (w + 100)
  else x

/-- Every setting after a pair is staged: the staged one, those that follow it, the others. -/
theorem Settings.get_stage {id k : Nat} (hid : 1 ≤ id) (hle : id ≤ 43) (hk : 1 ≤ k) (v : Nat)
    (c : Settings) : (c.stage id v).get k =
      if k = id then stagedValue c id v else followed id (stagedValue c id v) k (c.get k) := by
  rw [Settings.stage, Settings.follow_eq]
  generalize stagedValue c id v = w
  by_cases h1 : id = 1
  · by_cases hk34 : k = 34 <;> simp [h1, hk, hk34, Settings.get_put, followed]
  by_cases h9 : id = 9
  · rcases (by omega : k = 10 ∨ k = 11 ∨ k = 12 ∨ (k ≠ 10 ∧ k ≠ 11 ∧ k ≠ 12)) with
      rfl | rfl | rfl | hother
    case inr.inr.inr => simp [h9, hk, hother, Settings.get_put, followed]
    all_goals simp [h9, Settings.get_put, followed]
  by_cases h15 : id = 15
  · by_cases hk16 : k = 16 <;> simp [h15, hk, hk16, Settings.get_put, followed]
  by_cases h27 : id = 27
  · by_cases hk29 : k = 29 <;> simp [h27, hk, hk29, Settings.get_put, followed]
  · simp [h1, h9, h15, h27, hid, hle, hk, Settings.get_put, followed]

theorem Settings.stage_profiles (id v : Nat) (c : Settings) :
    (c.stage id v).profiles = c.profiles := by
  rw [Settings.stage, Settings.follow_eq]
  split_ifs <;> rfl

/-! ## Ranges and relations (R42, R58, R73, R112, R131) -/

/-- A value lies within the range of the setting with an id. -/
def InSettingRange (id v : Nat) : Prop :=
  (settingRanges.getD (id - 1) (0, 0)).1 ≤ v ∧ v ≤ (settingRanges.getD (id - 1) (0, 0)).2

theorem Settings.inRange_iff (c : Settings) :
    c.inRange = true ↔ ∀ k, 1 ≤ k → k ≤ 43 → InSettingRange k (c.get k) := by
  have hlen : settingRanges.length = 43 := rfl
  simp only [Settings.inRange, List.all_eq_true, Bool.and_eq_true, decide_eq_true_eq]
  constructor
  · intro h k hk hle
    refine h (c.get k, settingRanges.getD (k - 1) (0, 0)) (List.mem_iff_getElem.mpr ⟨k - 1, ?_, ?_⟩)
    · simp only [List.length_zip, Settings.values_length, hlen]; omega
    · rw [List.getElem_zip, Settings.get, List.getD_eq_getElem, List.getD_eq_getElem]
  · intro h x hx
    obtain ⟨i, hi, rfl⟩ := List.mem_iff_getElem.mp hx
    simp only [List.length_zip, Settings.values_length, hlen] at hi
    have := h (i + 1) (by omega) (by omega)
    rw [InSettingRange, Settings.get, Nat.add_sub_cancel,
      List.getD_eq_getElem _ _ (by omega : i < settingRanges.length),
      List.getD_eq_getElem _ _ (by rw [Settings.values_length]; omega)] at this
    rwa [List.getElem_zip]

theorem Settings.related_iff (c : Settings) : c.related = true ↔
    c.get 10 ≤ c.get 9 ∧ c.get 11 ≤ c.get 9 ∧ c.get 12 ≤ c.get 9 ∧ c.get 15 < c.get 16 ∧
      c.get 27 + 100 ≤ c.get 29 ∧ c.get 34 ≤ c.get 1 := by
  simp only [Settings.related, Bool.and_eq_true, decide_eq_true_eq, and_assoc]
  exact Iff.rfl

theorem Settings.sound_iff (c : Settings) :
    c.sound = true ↔ c.inRange = true ∧ c.related = true := by
  simp [Settings.sound]

theorem clampRange_inRange {id : Nat} (hid : 1 ≤ id) (hle : id ≤ 43) (v : Nat) :
    InSettingRange id (clampRange id v) := by
  have hends : ∀ i < 43, (settingRanges.getD i (0, 0)).1 ≤ (settingRanges.getD i (0, 0)).2 := by
    decide
  have := hends (id - 1) (by omega)
  simp only [InSettingRange, clampRange]
  omega

/-- A value kept within its relation stays within its range, since the other setting is in range. -/
theorem stagedValue_inRange {c : Settings} (h : c.inRange = true) {id : Nat} (hid : 1 ≤ id)
    (hle : id ≤ 43) (v : Nat) : InSettingRange id (stagedValue c id v) := by
  rw [Settings.inRange_iff] at h
  have hclamp := clampRange_inRange hid hle v
  have hfs : 4000 ≤ c.jackFs ∧ c.jackFs ≤ 10000 := h 1 (by decide) (by decide)
  have hcap : 10 ≤ c.capacity ∧ c.capacity ≤ 200 := h 9 (by decide) (by decide)
  have halert : 50 ≤ c.alertLevel ∧ c.alertLevel ≤ 2000 := h 15 (by decide) (by decide)
  have hrefusal : 500 ≤ c.refusalPressure ∧ c.refusalPressure ≤ 4000 := h 27 (by decide) (by decide)
  unfold stagedValue relate
  split_ifs with hdemand haction hmax hjack
  · rcases hdemand with rfl | rfl | rfl <;>
      simp [InSettingRange, settingRanges] at hclamp ⊢ <;> omega
  · subst haction; simp [InSettingRange, settingRanges] at hclamp ⊢; omega
  · subst hmax; simp [InSettingRange, settingRanges] at hclamp ⊢; omega
  · subst hjack; simp [InSettingRange, settingRanges] at hclamp ⊢; omega
  · exact hclamp

/-- A setting that follows another in range stays in range. -/
theorem followed_inRange {id w k x : Nat} (hw : InSettingRange id w) (hx : InSettingRange k x) :
    InSettingRange k (followed id w k x) := by
  unfold followed
  split_ifs with hjack hdemand haction hmax
  · obtain ⟨rfl, rfl⟩ := hjack
    simp [InSettingRange, settingRanges] at hw hx ⊢; omega
  · obtain ⟨rfl, rfl | rfl | rfl⟩ := hdemand <;>
      simp [InSettingRange, settingRanges] at hw hx ⊢ <;> omega
  · obtain ⟨rfl, rfl⟩ := haction
    simp [InSettingRange, settingRanges] at hw hx ⊢; omega
  · obtain ⟨rfl, rfl⟩ := hmax
    simp [InSettingRange, settingRanges] at hw hx ⊢; omega
  · exact hx

theorem Settings.inRange_stage {c : Settings} (h : c.inRange = true) {id : Nat} (hid : 1 ≤ id)
    (hle : id ≤ 43) (v : Nat) : (c.stage id v).inRange = true := by
  have hw := stagedValue_inRange h hid hle v
  refine (Settings.inRange_iff _).mpr fun k hk hk' => ?_
  rw [Settings.get_stage hid hle hk]
  split
  next hki => rw [hki]; exact hw
  next => exact followed_inRange hw ((Settings.inRange_iff c).mp h k hk hk')

/-- Staging keeps the relations: a setting staged is clamped to its own, and one that another bounds
follows that. -/
theorem Settings.related_stage {c : Settings} (h : c.related = true) {id : Nat} (hid : 1 ≤ id)
    (hle : id ≤ 43) (v : Nat) : (c.stage id v).related = true := by
  rw [Settings.related_iff] at h ⊢
  have hget : ∀ k, 1 ≤ k → (c.stage id v).get k =
      if k = id then stagedValue c id v else followed id (stagedValue c id v) k (c.get k) :=
    fun k hk => Settings.get_stage hid hle hk v c
  have hcap : c.capacity = c.get 9 := rfl
  have halert : c.alertLevel = c.get 15 := rfl
  have hrefusal : c.refusalPressure = c.get 27 := rfl
  have hfs : c.jackFs = c.get 1 := rfl
  by_cases hrel : id = 1 ∨ id = 9 ∨ id = 10 ∨ id = 11 ∨ id = 12 ∨ id = 15 ∨ id = 16 ∨ id = 27 ∨
      id = 29 ∨ id = 34
  · rcases hrel with rfl | rfl | rfl | rfl | rfl | rfl | rfl | rfl | rfl | rfl <;>
      simp [hget, followed, stagedValue, relate, hcap, halert, hrefusal, hfs] <;> omega
  · simp only [not_or] at hrel
    simpa [hget, followed, eq_comm, hrel] using h

theorem Settings.sound_stage {c : Settings} (h : c.sound = true) {id : Nat} (hid : 1 ≤ id)
    (hle : id ≤ 43) (v : Nat) : (c.stage id v).sound = true := by
  rw [Settings.sound_iff] at h ⊢
  exact ⟨Settings.inRange_stage h.1 hid hle v, Settings.related_stage h.2 hid hle v⟩

/-! ## Pairs staged in order (R178) -/

/-- The image that pairs leave is that of one pair after another. -/
theorem stagePairs_image (c : Settings) (pairs : List (Nat × Nat)) :
    (stagePairs c pairs).image = pairs.foldl (fun c x => c.stage x.1 x.2) c := by
  induction pairs generalizing c with
  | nil => rfl
  | cons x rest ih => exact ih (c.stage x.1 x.2)

theorem sound_stagePairs {c : Settings} (h : c.sound = true) {pairs : List (Nat × Nat)}
    (hids : ∀ x ∈ pairs, 1 ≤ x.1 ∧ x.1 ≤ 43) : (stagePairs c pairs).image.sound = true := by
  induction pairs generalizing c with
  | nil => exact h
  | cons x rest ih =>
    rw [List.forall_mem_cons] at hids
    exact ih (Settings.sound_stage h hids.1.1 hids.1.2 x.2) hids.2

/-! ## What every command keeps of the settings -/

theorem State.settingsSound_iff (s : State) : s.settingsSound = true ↔
    s.settings.sound = true ∧ ∀ x, s.staging = some x → x.image.sound = true := by
  cases hx : s.staging <;> simp [State.settingsSound, hx]

theorem State.image_sound {s : State} (h : s.settingsSound = true) : s.image.sound = true := by
  obtain ⟨hforce, hstaged⟩ := (State.settingsSound_iff s).mp h
  unfold State.image
  split
  next x hx => exact hstaged x hx
  next => exact hforce

theorem State.settingsSound_holdImage {s : State} (h : s.settingsSound = true) (p : PortNo)
    {image : Settings} (hi : image.sound = true) : (s.holdImage p image).settingsSound = true := by
  refine (State.settingsSound_iff _).mpr ⟨((State.settingsSound_iff s).mp h).1, fun x hx => ?_⟩
  cases hx
  exact hi

theorem State.settingsSound_congr {s t : State} (h : s.settingsSound = true)
    (hsettings : t.settings = s.settings) (hstaging : t.staging = s.staging) :
    t.settingsSound = true := by
  rw [State.settingsSound_iff] at h ⊢
  rwa [hsettings, hstaging]

theorem State.acceptRelease_settings (e : Engine) (s : State) :
    (s.acceptRelease e).settings = s.settings := by
  unfold State.acceptRelease
  split <;> rfl

theorem State.acceptRelease_staging (e : Engine) (s : State) :
    (s.acceptRelease e).staging = s.staging := by
  unfold State.acceptRelease
  split <;> rfl

/-- A profile replaced leaves the 43 values. -/
theorem Settings.sound_putProfile (n : Nat) (steps : List Step) (c : Settings) :
    (c.putProfile n steps).sound = c.sound := rfl

/-- The settings in range and related survive every shared operation. -/
theorem keeps_settingsSound : Keeps fun s => s.settingsSound = true where
  free h e := State.settingsSound_congr h (congrArg Guarded.settings e) (congrArg Guarded.staging e)
  insertMark _ _ h := h
  dropMarks _ h := h
  headMark h _ := h
  duty _ _ _ h := h
  period _ _ h := h
  claim _ _ h _ _ := h
  release e h := State.settingsSound_congr h (State.acceptRelease_settings e _)
    (State.acceptRelease_staging e _)
  line _ h := h
  trip h _ := h
  clear h := h
  raise _ h := h
  port _ _ h _ := h
  records _ h _ := h
  found _ h _ _ := h
  slot _ h := h
  declare _ h _ _ _ := h
  withdraw h _ _ := h
  panel _ _ h _ := h
  ask _ _ _ h := h
  settle _ h _ := h
  stage p _ h hids :=
    State.settingsSound_holdImage h p (sound_stagePairs (State.image_sound h) hids)
  profile p n steps h := State.settingsSound_holdImage h p
    ((Settings.sound_putProfile n steps _).trans (State.image_sound h))
  unstage {s} h := (State.settingsSound_iff _).mpr
    ⟨((State.settingsSound_iff s).mp h).1, fun _ hx => by cases hx⟩

/-- An image that comes into force leaves the settings in range and related. -/
theorem State.settingsSound_inForce {s : State} {x : Staging} (h : s.settingsSound = true)
    (hx : s.staging = some x) :
    State.settingsSound { s with settings := x.image, staging := none } = true :=
  (State.settingsSound_iff _).mpr
    ⟨((State.settingsSound_iff s).mp h).2 x hx, fun _ hn => by cases hn⟩

/-- Every command but the end of a start-up's scan keeps the settings in range and related. -/
theorem exec_settingsSound {c : Instr} (hc : ∀ run, c ≠ .startUpScanDone run) {s : State}
    (h : s.settingsSound = true) : After (fun t => t.settingsSound = true) (exec c s) := by
  have hdue : s.expireDue.settingsSound = true := keeps_settingsSound.expireDue h
  refine keeps_settingsSound.exec_of h ?_ ?_ ?_ ?_
  · rintro cause pins phases run rfl
    show After _ (onStartUp cause pins phases run s.expireDue)
    unfold onStartUp
    split
    · exact hdue
    · exact (rfl : State.reset.settingsSound = true)
  · rintro phases run rfl
    exact Keeps.powered (P := fun t => t.settingsSound = true) hdue
      fun _ _ => (rfl : State.reset.settingsSound = true)
  · exact fun run hrun => absurd hrun (hc run)
  · rintro run rfl
    exact keeps_settingsSound.appended State.settingsSound_inForce run h

end Sys2Proof.Machine

namespace Sys2Proof.Proofs

open Sys2Proof.Machine

/-- Settles O60: staging a pair keeps an image in range and related, and only an image comes into
force. -/
theorem settingsStayInRange : Obligations.SettingsStayInRange := by
  intro c rest s t hp hc h hst
  have hexec : After (fun u => u.settingsSound = true) (exec c { s with pending := rest }) :=
    exec_settingsSound hc h
  rw [← step_cons hp, hst] at hexec
  exact hexec

end Sys2Proof.Proofs
end

section
/-! SUPPORT. The staging requests: the pairs that a STAGE_SETTING carries, the steps that a
STAGE_PROFILE carries, and what their decisions make of them. -/

namespace Sys2Proof.Machine

/-! ## Bytes read back (R186) -/

theorem byteAt_enc8 {n : Nat} (h : n < 256) (before after : List Byte) :
    byteAt (before ++ (enc8 n ++ after)) before.length = n := by
  simp [byteAt, enc8, h, List.getD_eq_getElem?_getD]

theorem u16At_enc16 {n : Nat} (h : n < 65536) (before after : List Byte) :
    u16At (before ++ (enc16 n ++ after)) before.length = n := by
  simp [u16At, byteAt, enc16, bytes16, h, List.getD_eq_getElem?_getD, Nat.shiftRight_eq_div_pow]
  omega

/-! ## The pairs of a STAGE_SETTING (R187) -/

/-- A pair as its three bytes. -/
def encPair (x : Nat × Nat) : List Byte := enc8 x.1 ++ enc16 x.2

/-- Pairs written behind some bytes are read back. -/
theorem pairsAt_flatMap {pairs : List (Nat × Nat)} (h : ∀ x ∈ pairs, x.1 < 256 ∧ x.2 < 65536)
    (before : List Byte) :
    pairsAt (before ++ pairs.flatMap encPair) before.length pairs.length = pairs := by
  induction pairs generalizing before with
  | nil => rfl
  | cons x rest ih =>
    rw [List.forall_mem_cons] at h
    obtain ⟨⟨hid, hval⟩, hrest⟩ := h
    have htail := ih hrest (before ++ encPair x)
    simp only [List.length_append, encPair, enc8_length, enc16_length, List.append_assoc] at htail
    have hfirst := byteAt_enc8 hid before (enc16 x.2 ++ rest.flatMap encPair)
    have hsecond := u16At_enc16 hval (before ++ enc8 x.1) (rest.flatMap encPair)
    simp only [List.length_append, enc8_length, List.append_assoc] at hsecond
    simp only [List.length_cons, pairsAt, List.flatMap_cons, encPair, List.append_assoc, hfirst,
      hsecond]
    exact congrArg (x :: ·) htail

theorem stageForm_flatMap {pairs : List (Nat × Nat)} (hlo : 1 ≤ pairs.length)
    (hhi : pairs.length ≤ 16) (h : ∀ x ∈ pairs, 1 ≤ x.1 ∧ x.1 ≤ 43 ∧ x.2 < 65536) :
    pairsOf (pairs.flatMap encPair) = pairs ∧ stageFormOk (pairs.flatMap encPair) = true := by
  have hlen : (pairs.flatMap encPair).length = 3 * pairs.length :=
    length_flatMap_of_const (fun _ => rfl : ∀ x, (encPair x).length = 3) pairs
  have hpairs : pairsOf (pairs.flatMap encPair) = pairs := by
    rw [pairsOf, hlen, Nat.mul_div_cancel_left _ (by decide)]
    refine pairsAt_flatMap (fun x hx => ?_) []
    obtain ⟨-, hid, hval⟩ := h x hx
    exact ⟨by omega, hval⟩
  refine ⟨hpairs, ?_⟩
  simp only [stageFormOk, hpairs, hlen, Bool.and_eq_true, beq_iff_eq, decide_eq_true_eq,
    List.all_eq_true]
  exact ⟨⟨⟨by omega, by omega⟩, by omega⟩, fun x hx => ⟨(h x hx).1, (h x hx).2.1⟩⟩

/-! ## The holder of the image (R178) -/

theorem State.heldByOther_true {p : PortNo} {s : State} :
    s.heldByOther p = true ↔ ∃ x, s.staging = some x ∧ x.holder ≠ p := by
  cases hx : s.staging <;> simp [State.heldByOther, hx]

theorem State.not_heldByOther {p : PortNo} {s : State} :
    ¬ s.heldByOther p = true ↔ ∀ x, s.staging = some x → x.holder = p := by
  cases hx : s.staging <;> simp [State.heldByOther, hx]

/-! ## The steps of a STAGE_PROFILE (R179) -/

theorem allSteps_map_some (steps : List Step) : allSteps (steps.map some) = some steps := by
  induction steps with
  | nil => rfl
  | cons st rest ih => rw [List.map_cons, allSteps, ih, Option.map_some]

/-! ## The three decisions -/

theorem stageSetting_decided (p : PortNo) (form : List Byte) :
    DecidedBy (.stageSetting p form) (decideStageSetting p) := fun _ h _ => by cases h; rfl

theorem stageProfile_decided (p : PortNo) (form : List Byte) :
    DecidedBy (.stageProfile p form) (decideStageProfile p) := fun _ h _ => by cases h; rfl

theorem dropStaging_decided (p : PortNo) (form : List Byte) :
    DecidedBy (.dropStaging p form) (decideDropStaging p) := fun _ h _ => by cases h; rfl

/-- STAGE_SETTING of pairs with known ids, by whether another port holds the image. -/
theorem decideStageSetting_eq {pairs : List (Nat × Nat)} (hlo : 1 ≤ pairs.length)
    (hhi : pairs.length ≤ 16) (h : ∀ x ∈ pairs, 1 ≤ x.1 ∧ x.1 ≤ 43 ∧ x.2 < 65536) (p : PortNo)
    (s : State) : decideStageSetting p (pairs.flatMap encPair) s =
      if s.heldByOther p = true then refuse .stagingHeld s
      else .reply (if (stagePairs s.image pairs).clamped then .okClamped else .ok)
        ((stagePairs s.image pairs).pairs.flatMap encPair)
        { s with staging := some ⟨p, pairs.foldl (fun c x => c.stage x.1 x.2) s.image⟩ } := by
  obtain ⟨hpairs, hform⟩ := stageForm_flatMap hlo hhi h
  rw [decideStageSetting, hform, hpairs, State.holdImage, stagePairs_image]
  rfl

/-- STAGE_PROFILE with a profile number out of range. -/
theorem decideStageProfile_range {ps : List Byte} (hlen : ps.length = 2 + 7 * byteAt ps 1)
    (hnum : byteAt ps 0 < 1 ∨ 4 < byteAt ps 0) (p : PortNo) (s : State) :
    decideStageProfile p ps s = refuse .outOfRange s := by
  rw [decideStageProfile, if_neg (not_not.mpr hlen), if_pos hnum]

section
variable {ps : List Byte} (hlen : ps.length = 2 + 7 * byteAt ps 1) (hlo : 1 ≤ byteAt ps 0)
  (hhi : byteAt ps 0 ≤ 4) {p : PortNo} {s : State}
include hlen hlo hhi

theorem decideStageProfile_held (h : s.heldByOther p = true) :
    decideStageProfile p ps s = refuse .stagingHeld s := by
  rw [decideStageProfile, if_neg (not_not.mpr hlen), if_neg (by omega), if_pos h]

theorem decideStageProfile_fault (h : ¬ s.heldByOther p = true) {i c : Nat}
    (hfault : profileFault (stepsAt ps 2 (byteAt ps 1)) = some (i, c)) :
    decideStageProfile p ps s = refuseWith .badProfile (enc8 i ++ enc8 c) s := by
  rw [decideStageProfile, if_neg (not_not.mpr hlen), if_neg (by omega), if_neg h, hfault]

theorem decideStageProfile_pass (h : ¬ s.heldByOther p = true) {steps : List Step}
    (hsteps : stepsAt ps 2 (byteAt ps 1) = steps.map some)
    (hpass : profileFault (steps.map some) = none) : decideStageProfile p ps s =
      .reply .ok [] (s.holdImage p (s.image.putProfile (byteAt ps 0) steps)) := by
  rw [decideStageProfile, if_neg (not_not.mpr hlen), if_neg (by omega), if_neg h, hsteps, hpass,
    allSteps_map_some]

end

theorem decideDropStaging_eq (p : PortNo) (s : State) : decideDropStaging p [] s =
    if s.heldByOther p = true then refuse .stagingHeld s
    else .reply .ok [] { s with staging := none } := rfl

end Sys2Proof.Machine

namespace Sys2Proof.Proofs

open Sys2Proof.Machine

/-- Settles O47: a setting by whether it is the staged one or follows it; each request by whether
another port holds the image. -/
theorem settingsAreStaged : Obligations.SettingsAreStaged := by
  refine ⟨⟨?_, ?_⟩, ?_, ?_⟩
  · rintro c id v w hid hle rfl
    have hget : ∀ k, 1 ≤ k → (c.stage id v).get k =
        if k = id then stagedValue c id v else followed id (stagedValue c id v) k (c.get k) :=
      fun k hk => Settings.get_stage hid hle hk v c
    refine ⟨(hget id hid).trans (if_pos rfl), Settings.stage_profiles id v c, rfl,
      fun k hk _ hne => (hget k hk).trans (if_neg hne)⟩
  · intro p form s r ps pairs h hps hlo hhi hpairs
    have hdec := decideStageSetting_eq hlo hhi hpairs p (s.taken r.port r.code r.form)
    rw [hps] at h
    refine ⟨fun hheld => h.reply (stageSetting_decided p form)
        (hdec.trans (if_pos (State.heldByOther_true.mpr hheld))),
      fun hfree => h.reply (stageSetting_decided p form)
        (hdec.trans (if_neg (State.not_heldByOther.mpr hfree)))⟩
  · intro p form s r ps h hlen
    refine ⟨fun hnum => h.reply (stageProfile_decided p form)
      (decideStageProfile_range hlen (by omega) p _), fun hlo hhi => ⟨fun hheld =>
        h.reply (stageProfile_decided p form) (decideStageProfile_held hlen hlo hhi
          (State.heldByOther_true.mpr hheld)), fun hfree => ?_⟩⟩
    have hfree : ¬ (s.taken r.port r.code r.form).heldByOther p = true :=
      State.not_heldByOther.mpr hfree
    refine ⟨fun i c hfault => h.reply (stageProfile_decided p form)
      (decideStageProfile_fault hlen hlo hhi hfree hfault), fun steps hsteps hpass =>
        h.reply (stageProfile_decided p form)
          ((decideStageProfile_pass hlen hlo hhi hfree hsteps hpass).trans ?_)⟩
    generalize byteAt ps 0 = n at hlo hhi ⊢
    interval_cases n <;> rfl
  · intro p form s r h
    have hdec := decideDropStaging_eq p (s.taken r.port r.code r.form)
    refine ⟨fun hheld => h.reply (dropStaging_decided p form)
        (hdec.trans (if_pos (State.heldByOther_true.mpr hheld))),
      fun hfree => h.reply (dropStaging_decided p form)
        (hdec.trans (if_neg (State.not_heldByOther.mpr hfree)))⟩

end Sys2Proof.Proofs
end

section
/-! SUPPORT. The supply arbiter, the trip latch and the outputs: the order of the claim queue, the
grant pass, and what each of their commands makes of the state. -/

namespace Sys2Proof.Machine

/-! ## The claim queue (R61) -/

/-- In a queue in order of priority a claim joins behind every claim of equal or higher priority. -/
theorem queueClaim_split (c : Claim) {q : List Claim}
    (h : q.Pairwise fun x y => priority y.engine ≤ priority x.engine) :
    ∃ before after, queueClaim c q = before ++ c :: after ∧ before ++ after = q ∧
      (∀ x ∈ before, priority c.engine ≤ priority x.engine) ∧
      ∀ x ∈ after, priority x.engine < priority c.engine := by
  induction q with
  | nil => exact ⟨[], [], rfl, rfl, by simp, by simp⟩
  | cons x rest ih =>
    obtain ⟨hx, hrest⟩ := List.pairwise_cons.mp h
    rw [queueClaim]
    split
    next hlow =>
      refine ⟨[], x :: rest, rfl, rfl, by simp, List.forall_mem_cons.mpr ⟨hlow, fun y hy => ?_⟩⟩
      exact Nat.lt_of_le_of_lt (hx y hy) hlow
    next hhigh =>
      obtain ⟨before, after, hq, hsame, hb, ha⟩ := ih hrest
      refine ⟨x :: before, after, by rw [hq]; rfl, by rw [← hsame]; rfl,
        List.forall_mem_cons.mpr ⟨Nat.not_lt.mp hhigh, hb⟩, ha⟩

/-! ## The grant pass (R62) -/

/-- A pass grants from the head while the head fits the free flow, and stops at the first that does
not. -/
theorem grantPass_spec (free : Nat) (q : List Claim) :
    (Machine.grantPass free q).1 ++ (Machine.grantPass free q).2 = q ∧
      ((Machine.grantPass free q).1.map Claim.demand).sum ≤ free ∧
      ∀ c rest, (Machine.grantPass free q).2 = c :: rest →
        free < ((Machine.grantPass free q).1.map Claim.demand).sum + c.demand := by
  induction q generalizing free with
  | nil => simp [Machine.grantPass]
  | cons x rest ih =>
    rw [Machine.grantPass]
    split
    next hfit =>
      obtain ⟨hsplit, hsum, hstop⟩ := ih (free - x.demand)
      simp only [List.cons_append, hsplit, List.map_cons, List.sum_cons, true_and]
      refine ⟨by omega, fun c more hc => ?_⟩
      have := hstop c more hc
      omega
    next hfit =>
      refine ⟨rfl, Nat.zero_le _, fun c more hc => ?_⟩
      cases hc
      simpa using hfit

/-! ## The commands of the arbiter with no mark due -/

section
variable {s : State} (hp : s.powered = true) (hd : s.noneDue = true)
include hp hd

/-- A command that stands for an event handles it in the state as it is. -/
theorem whenPowered_expireDue (f : State → State) : s.expireDue.whenPowered f = f s := by
  rw [State.expireDue_noneDue hd, State.whenPowered_pos hp]

theorem exec_claim {e : Engine} {demand : Nat} {before after : List Delivery}
    (hs : s.deliveries = before ++ .claim e demand :: after)
    (hb : ∀ d ∈ before, d.fromEngine e = false) :
    exec (.claim e) s =
      .next (State.decideClaim e demand { s with deliveries := before ++ after }) := by
  refine congrArg Host.Outcome.next ((whenPowered_expireDue hp hd _).trans ?_)
  exact State.deliver_split hs hb (by simp [Delivery.fromEngine]) (by simp [Delivery.claimOf])

theorem exec_release {e : Engine} {before after : List Delivery}
    (hs : s.deliveries = before ++ .release e :: after)
    (hb : ∀ d ∈ before, d.fromEngine e = false) :
    exec (.release e) s =
      .next (State.acceptRelease e { s with deliveries := before ++ after }) := by
  refine congrArg Host.Outcome.next ((whenPowered_expireDue hp hd _).trans ?_)
  exact State.deliver_split hs hb (by simp [Delivery.fromEngine]) (if_pos rfl)

theorem exec_grant {e : Engine} {before after : List Delivery}
    (hs : s.deliveries = before ++ .grant e :: after)
    (hb : ∀ d ∈ before, d.isGrant = false ∧ d.toEngine e = false) :
    exec (.grant e) s = .next (State.engineGrant e { s with deliveries := before ++ after }) := by
  refine congrArg Host.Outcome.next ((whenPowered_expireDue hp hd _).trans ?_)
  exact State.deliver_split hs (fun d hd => by simp [hb d hd]) (by simp [Delivery.isGrant])
    (if_pos rfl)

/-- A grant made to another engine before its own holds a GRANT back (R62). -/
theorem exec_grant_other {e f : Engine} (hf : f ≠ e) {before after : List Delivery}
    (hs : s.deliveries = before ++ .grant f :: after)
    (hb : ∀ d ∈ before, d.isGrant = false ∧ d.toEngine e = false) :
    exec (.grant e) s = .next s := by
  refine congrArg Host.Outcome.next ((whenPowered_expireDue hp hd _).trans ?_)
  have hfirst := takeFirst_split (among := fun d => d.isGrant || d.toEngine e) (before := before)
    (d := .grant f) (after := after) (fun d hd => by simp [hb d hd]) rfl
  simp [State.deliver, hs, hfirst, hf]

theorem exec_tripNotice {e : Engine} {before after : List Delivery}
    (hs : s.deliveries = before ++ .tripNotice e :: after)
    (hb : ∀ d ∈ before, d.toEngine e = false) :
    exec (.tripNotice e) s =
      .next (State.engineTrip e { s with deliveries := before ++ after }) := by
  refine congrArg Host.Outcome.next ((whenPowered_expireDue hp hd _).trans ?_)
  exact State.deliver_split hs hb (by simp [Delivery.toEngine]) (if_pos rfl)

theorem exec_clearNotice {e : Engine} {before after : List Delivery}
    (hs : s.deliveries = before ++ .clearNotice e :: after)
    (hb : ∀ d ∈ before, d.toEngine e = false) :
    exec (.clearNotice e) s =
      .next (State.engineClear e { s with deliveries := before ++ after }) := by
  refine congrArg Host.Outcome.next ((whenPowered_expireDue hp hd _).trans ?_)
  exact State.deliver_split hs hb (by simp [Delivery.toEngine]) (if_pos rfl)

theorem exec_tripLineAssertion : exec .tripLineAssertion s =
    .next (if s.supply.latched = true then
        { s with supply := { s.supply with lineAsserted := true } }
      else s.latchTrip) :=
  congrArg Host.Outcome.next (whenPowered_expireDue hp hd _)

theorem exec_tripLineRelease : exec .tripLineRelease s =
    .next { s with supply := { s.supply with lineAsserted := false } } :=
  congrArg Host.Outcome.next (whenPowered_expireDue hp hd _)

theorem exec_valvePeriodStart (v : Valve) : exec (.valvePeriodStart v) s =
    .next { s with outputs := s.outputs.modify v (Output.period s.settings.ditherHz) } :=
  congrArg Host.Outcome.next (whenPowered_expireDue hp hd _)

end

/-! ## CLEAR_TRIP (R66) -/

theorem clearTrip_decided (p : PortNo) (form : List Byte) :
    DecidedBy (.clearTrip p form) decideClearTrip := fun _ h _ => by cases h; rfl

theorem decideClearTrip_eq (s : State) : decideClearTrip [] s =
    if s.supply.lineAsserted = true then refuse .lineActive s
    else if s.supply.latched = true then .reply .ok [] s.clearLatch
    else .reply .ok [] s := rfl

/-! ## The outputs (R68, R69) -/

/-- The interlock of the jack: a duty above 0 on one jack output turns the other off, if that has
one (R68). -/
def Interlocked (v w : Valve) (d : Nat) (os : Outputs) : Prop :=
  0 < d ∧ 0 < (os.get w).set ∧
    ((v = .jackAdvance ∧ w = .jackRelease) ∨ (v = .jackRelease ∧ w = .jackAdvance))

theorem Outputs.get_write_same (v : Valve) (d : Nat) (os : Outputs) :
    (os.write v d).get v = (os.get v).write d := by
  cases v <;> rfl

theorem Outputs.get_write_interlocked {v w : Valve} {d : Nat} {os : Outputs}
    (h : Interlocked v w d os) : (os.write v d).get w = (os.get w).off := by
  obtain ⟨hd, hset, ⟨rfl, rfl⟩ | ⟨rfl, rfl⟩⟩ := h <;> exact if_pos ⟨hd, hset⟩

theorem Outputs.get_write_other {v w : Valve} {d : Nat} {os : Outputs} (hne : w ≠ v)
    (h : ¬ Interlocked v w d os) : (os.write v d).get w = os.get w := by
  cases v <;> cases w
  case jackAdvance.jackRelease =>
    exact if_neg fun hset => h ⟨hset.1, hset.2, .inl ⟨rfl, rfl⟩⟩
  case jackRelease.jackAdvance =>
    exact if_neg fun hset => h ⟨hset.1, hset.2, .inr ⟨rfl, rfl⟩⟩
  case winch.winch | pump.pump | jackAdvance.jackAdvance | jackRelease.jackRelease =>
    exact absurd rfl hne
  all_goals rfl

theorem Outputs.get_modify_same (v : Valve) (f : Output → Output) (os : Outputs) :
    (os.modify v f).get v = f (os.get v) := by
  cases v <;> rfl

theorem Outputs.get_modify_other {v w : Valve} (h : w ≠ v) (f : Output → Output) (os : Outputs) :
    (os.modify v f).get w = os.get w := by
  cases v <;> cases w
  case winch.winch | pump.pump | jackAdvance.jackAdvance | jackRelease.jackRelease =>
    exact absurd rfl h
  all_goals rfl

/-- A duty from the output's own engine is written, unless a trip holds the outputs. -/
theorem State.writeDuty_owner (v : Valve) (d : Nat) (s : State) :
    s.writeDuty (valveOwner v) v d =
      { s with outputs := if s.supply.latched = true then s.outputs
        else s.outputs.write v (min d 1000) } := by
  simp [State.writeDuty]

theorem State.writeDuty_refused {who : Engine} {v : Valve} {s : State}
    (h : s.supply.latched = true ∨ valveOwner v ≠ who) (d : Nat) : s.writeDuty who v d = s := by
  rw [State.writeDuty, if_pos h]

/-! ## What a grant makes of each engine (R95, R119, R136, R167) -/

theorem State.winchGrant_eq (s : State) : s.winchGrant =
    if s.winch.state ≠ .waitFlow then s
    else if s.winch.paid < (s.winch.slowBoundary.getD 0 : Int) then
      { s with
        winch := { s.winch with state := .run }
        outputs := if s.supply.latched = true then s.outputs
          else s.outputs.write .winch (min s.settings.runDuty 1000) }
    else
      { s with
        winch := { s.winch with state := .slow }
        outputs := if s.supply.latched = true then s.outputs
          else s.outputs.write .winch (min s.settings.slowDuty 1000) } := by
  rw [State.winchGrant, ite_not]
  have howner (d : Nat) (u : State) := State.writeDuty_owner .winch d u
  simp only [valveOwner] at howner
  simp only [howner]

theorem State.groutGrant_eq (s : State) : s.groutGrant =
    if s.grout.state ≠ .waitFlow then s
    else
      { s with
        grout := { s.grout with state := .pumping }
        marks := s.marks.filter fun m => m.name != .coldJoint
        outputs := if s.supply.latched = true then s.outputs
          else s.outputs.write .pump (min s.settings.pumpDuty 1000) } := by
  rw [State.groutGrant, ite_not, State.pump_eq]

/-- The duty of the jack's release as a lock-off takes up its seating (R159, R167). -/
theorem State.beginSeating_eq {s : State} (h : s.stress.state = .seating) : s.beginSeating =
    { s with
      stress := { s.stress with lock := { s.stress.lock with seatInserted := false } }
      outputs := if s.supply.latched = true then s.outputs
        else s.outputs.write .jackRelease (min s.settings.rampDuty 1000) } := by
  rw [State.beginSeating, State.writeDuty_jack rfl, ← h]

theorem State.beginLift_eq {s : State} (h : s.stress.state = .liftCheck) : s.beginLift =
    { s with
      meas := { s.meas with compare := some (s.stress.lock.point.getD 0) }
      outputs := if s.supply.latched = true then s.outputs
        else s.outputs.write .jackAdvance (min s.settings.approachDuty 1000) } := by
  rw [State.beginLift, State.writeDuty_jack rfl, ← h]
  rfl

theorem State.stressGrant_waiting {s : State} (h : s.stress.state = .waitFlow) : s.stressGrant =
    if s.testQuiet = true then
      { s with stress := { s.stress with state := .stepRamp, step := some 1, dir := .undecided } }
    else s.suspend .ramp := if_pos h

/-- A grant that a lock-off did not wait for is not acted on. -/
theorem State.stressGrant_unwaited {s : State} (h : s.stress.state ≠ .waitFlow)
    (hl : s.stress.state.inLock = false ∨ s.stress.lock.hold ≠ .flow) : s.stressGrant = s := by
  rw [State.stressGrant, if_neg h, if_neg]
  rintro ⟨hin, hf⟩
  rcases hl with hl | hl
  · simp [hin] at hl
  · exact hl hf

theorem State.stressGrant_held {s : State} (hin : s.stress.state.inLock = true)
    (hf : s.stress.lock.hold = .flow) : s.stressGrant = s.resumeLock := by
  have h : s.stress.state ≠ .waitFlow := fun hw => by simp [hw, StressState.inLock] at hin
  rw [State.stressGrant, if_neg h, if_pos ⟨hin, hf⟩]

theorem State.resumeLock_ramp {s : State} (h : s.stress.state = .lockRamp) : s.resumeLock =
    { s with stress := { s.stress with
      dir := .undecided, lock := { s.stress.lock with hold := .none } } } := by
  simp only [State.resumeLock, h]

theorem State.resumeLock_seating {s : State} (h : s.stress.state = .seating) : s.resumeLock =
    { s with
      stress := { s.stress with
        lock := { s.stress.lock with hold := .none, seatInserted := false } }
      outputs := if s.supply.latched = true then s.outputs
        else s.outputs.write .jackRelease (min s.settings.rampDuty 1000) } := by
  simp only [State.resumeLock, h]
  exact State.beginSeating_eq rfl

theorem State.resumeLock_lift {s : State} (h : s.stress.state = .liftCheck) : s.resumeLock =
    { s with
      stress := { s.stress with lock := { s.stress.lock with hold := .none } }
      meas := { s.meas with compare := some (s.stress.lock.point.getD 0) }
      outputs := if s.supply.latched = true then s.outputs
        else s.outputs.write .jackAdvance (min s.settings.approachDuty 1000) } := by
  simp only [State.resumeLock, h]
  exact State.beginLift_eq rfl

/-! ## What a notice makes of the stress engine (R66, R151, R166, R167) -/

theorem State.stressClear_unwaited {s : State} (h : s.stress.tripWait = false) :
    s.stressClear = s := by
  rw [State.stressClear, h, if_neg Bool.false_ne_true]

theorem State.setTripWait_eq (b : Bool) (s : State) :
    s.setTripWait b = { s with stress := { s.stress with tripWait := b } } := rfl

/-- The clear takes up a release of the jack that a trip held (R151). -/
theorem State.stressClear_releasing {s : State} (h : s.stress.tripWait = true)
    (hs : s.stress.state = .unloading ∨ s.stress.state = .finalRelease) : s.stressClear =
    { s with
      stress := { s.stress with tripWait := false }
      outputs := if s.supply.latched = true then s.outputs
        else s.outputs.write .jackRelease (min s.settings.rampDuty 1000) } := by
  rcases hs with hs | hs <;>
    simp only [State.stressClear, State.setTripWait_eq, h, hs, if_true,
      State.writeDuty_jack (v := .jackRelease) rfl]

/-- The clear lets a frozen lock-off claim its flow again (R167). -/
theorem State.stressClear_inLock {s : State} (h : s.stress.tripWait = true)
    (hs : s.stress.state = .lockRamp ∨ s.stress.state = .seating ∨ s.stress.state = .liftCheck) :
    s.stressClear =
      { s with
        stress := { s.stress with
          tripWait := false, lock := { s.stress.lock with hold := .flow } }
        deliveries := s.deliveries ++ [.claim .stress s.settings.stressDemand] } := by
  rcases hs with hs | hs | hs <;>
    simp only [State.stressClear, State.reclaimLock, State.claimFlow, State.send, Settings.demand,
      h, hs, if_true]

theorem State.stressClear_elsewhere {s : State} (h : s.stress.tripWait = true)
    (hl : s.stress.state.inLock = false) (hu : s.stress.state ≠ .unloading)
    (hf : s.stress.state ≠ .finalRelease) :
    s.stressClear = { s with stress := { s.stress with tripWait := false } } := by
  rw [State.stressClear, if_pos h]
  split
  next hs => exact absurd hs hu
  next hs => exact absurd hs hf
  next hs => simp [hs, StressState.inLock] at hl
  next hs => simp [hs, StressState.inLock] at hl
  next hs => simp [hs, StressState.inLock] at hl
  next => rfl


end Sys2Proof.Machine

namespace Sys2Proof.Proofs

open Sys2Proof.Machine

/-- Settles O24: the queue's order, the pass as a split of the queue, and a claim and a release by
the engine's status. -/
theorem arbiterDecides : Obligations.ArbiterDecides := by
  refine ⟨⟨fun c q h => queueClaim_split c h, ?_⟩, ?_, ?_⟩
  · rintro s t rfl
    obtain ⟨hsplit, hsum, hstop⟩ :=
      grantPass_spec (s.supply.free s.settings.capacity) s.supply.queue
    exact ⟨_, _, hsplit, hsum, hstop, rfl⟩
  · rintro e demand s u before after hp hd hs hb rfl
    rw [exec_claim hp hd hs hb]
    cases e <;> rfl
  · rintro e s u before after hp hd hs hb rfl
    rw [exec_release hp hd hs hb]
    refine ⟨fun h => ?_, fun h => ?_, fun h => ?_⟩ <;> simp [State.acceptRelease, h] <;> rfl

/-- Settles O25: the oldest grant in flight, and what each engine makes of its own by its state. -/
theorem grantsReachEngines : Obligations.GrantsReachEngines := by
  intro e s u before after hp hd hb
  refine ⟨fun f hf hs => exec_grant_other hp hd hf hs hb, fun hs hu => ?_⟩
  rw [exec_grant hp hd hs hb, ← hu]
  congr 1
  cases e with
  | winch =>
    rw [State.engineGrant, State.winchGrant_eq, hu]
  | grout =>
    rw [State.engineGrant, State.groutGrant_eq, hu]
  | stress =>
    have hstress : u.stress = s.stress := by rw [hu]
    have hquiet : u.testQuiet = s.testQuiet := by rw [hu]; rfl
    rw [State.engineGrant]
    by_cases hw : s.stress.state = .waitFlow
    · rw [if_pos hw, State.stressGrant_waiting (by rw [hstress, hw]), hquiet]
    rw [if_neg hw]
    by_cases hf : s.stress.lock.hold = .flow
    · have held := fun h => State.stressGrant_held (s := u) h (by rw [hstress, hf])
      have unwaited := fun h =>
        State.stressGrant_unwaited (s := u) (by rw [hstress]; exact hw) (.inl h)
      rw [if_pos hf]
      rw [hstress] at held unwaited
      cases hstate : s.stress.state
      case lockRamp =>
        rw [held (by rw [hstate]; rfl), State.resumeLock_ramp (by rw [hstress, hstate])]
      case seating =>
        rw [held (by rw [hstate]; rfl), State.resumeLock_seating (by rw [hstress, hstate]), hu]
      case liftCheck =>
        rw [held (by rw [hstate]; rfl), State.resumeLock_lift (by rw [hstress, hstate]), hu]
      all_goals exact unwaited (by rw [hstate]; rfl)
    · rw [if_neg hf, State.stressGrant_unwaited (by rw [hstress]; exact hw)
        (.inr (by rw [hstress]; exact hf))]

/-- Settles O26: the line by the latch, CLEAR_TRIP by the line and the latch. -/
theorem tripLineAndLatch : Obligations.TripLineAndLatch := by
  refine ⟨fun s hp hd hl => ?_, fun s hp hd hl => ?_, fun s hp hd => exec_tripLineRelease hp hd,
    fun p form s r h => ?_⟩
  · rw [exec_tripLineAssertion hp hd, hl]
    rfl
  · rw [exec_tripLineAssertion hp hd, if_pos hl]
  · have hdec := decideClearTrip_eq (s.taken r.port r.code r.form)
    split
    next ha => exact h.reply (clearTrip_decided p form) (hdec.trans (if_pos ha))
    next ha =>
      have hdec := hdec.trans (if_neg ha)
      split
      next hl => exact h.reply (clearTrip_decided p form) (hdec.trans (if_pos hl))
      next hl => exact h.reply (clearTrip_decided p form) (hdec.trans (if_neg hl))

/-- Settles O27: a clear by the engine and its trip wait, a trip of the stress engine by its state.
-/ theorem noticesReachEngines : Obligations.NoticesReachEngines := by
  refine ⟨?_, ?_⟩
  · intro e s u before after hp hd hs hb hu
    have hstress : u.stress = s.stress := by rw [hu]
    rw [exec_clearNotice hp hd hs hb, ← hu]
    congr 1
    split
    next h =>
      obtain ⟨rfl, hwait⟩ := h
      rw [State.engineClear]
      have hwait : u.stress.tripWait = true := by rw [hstress, hwait]
      cases hstate : s.stress.state
      case unloading | finalRelease =>
        rw [State.stressClear_releasing hwait (by simp [hstress, hstate]), hu]
      case lockRamp | seating | liftCheck =>
        rw [State.stressClear_inLock hwait (by simp [hstress, hstate]), hu]
      all_goals
        exact State.stressClear_elsewhere hwait (by rw [hstress, hstate]; rfl)
          (by simp [hstress, hstate]) (by simp [hstress, hstate])
    next h =>
      cases e
      case winch | grout => rfl
      case stress => exact State.stressClear_unwaited (by simpa [hstress] using h)
  · rintro s u before after hp hd hs hb rfl
    refine (exec_tripNotice hp hd hs hb).trans (congrArg Host.Outcome.next ?_)
    show State.stressTrip _ = _
    unfold State.stressTrip
    cases s.stress.state <;> rfl

/-- Settles O28: a duty write refused or written, the written output and the others apart; a
period's start likewise. -/
theorem dutyWritesAndPeriods : Obligations.DutyWritesAndPeriods := by
  refine ⟨fun who v d s h => State.writeDuty_refused h d, ?_, fun v s hp hd =>
    ⟨_, exec_valvePeriodStart hp hd v, Outputs.get_modify_same _ _ _,
      fun w hw => Outputs.get_modify_other hw _ _, rfl⟩⟩
  rintro v d s hl t rfl
  have hwritten : (s.writeDuty (valveOwner v) v d).outputs = s.outputs.write v (min d 1000) := by
    rw [State.writeDuty_owner, hl]
    rfl
  have hpos : 0 < min d 1000 ↔ 0 < d := by omega
  rw [hwritten, Outputs.get_write_same]
  refine ⟨rfl, ?_, ?_, ?_, ?_, rfl⟩
  · simp [Output.write]
  · rintro hd rfl hset
    have hoff := Outputs.get_write_interlocked (w := .jackRelease) (os := s.outputs)
      ⟨hpos.mpr hd, hset, .inl ⟨rfl, rfl⟩⟩
    exact ⟨congrArg Output.set hoff, congrArg Output.driven hoff⟩
  · rintro hd rfl hset
    have hoff := Outputs.get_write_interlocked (w := .jackAdvance) (os := s.outputs)
      ⟨hpos.mpr hd, hset, .inr ⟨rfl, rfl⟩⟩
    exact ⟨congrArg Output.set hoff, congrArg Output.driven hoff⟩
  · intro w hw hfree
    exact Outputs.get_write_other hw fun ⟨hd, hlock⟩ => hfree ⟨hpos.mp hd, hlock⟩

end Sys2Proof.Proofs
end

section
/-! SUPPORT. What the expiries, the trips and the panel table leave of the arbiter. -/

namespace Sys2Proof.Machine

/-! ## The panel table -/

@[simp] theorem State.changePanel_supply (n : Nat) (new : PanelState) (s : State) :
    (s.changePanel n new).supply = s.supply := by
  simp only [State.changePanel, apply_ite State.supply, State.raise_supply, State.send_supply,
    State.modifyPanel_supply, ite_self]

@[simp] theorem State.rejudgePanel_supply (s : State) (n : Nat) :
    (s.rejudgePanel n).supply = s.supply := by
  unfold State.rejudgePanel
  split
  · rfl
  · exact State.changePanel_supply _ _ s
  · rfl

/-- Handlings that leave the arbiter leave it one after another. -/
theorem foldl_supply {α : Type} {f : State → α → State}
    (h : ∀ s x, (f s x).supply = s.supply) (l : List α) (s : State) :
    (l.foldl f s).supply = s.supply := by
  induction l generalizing s with
  | nil => rfl
  | cons x rest ih => exact (ih (f s x)).trans (h s x)

@[simp] theorem State.applyPanelSettings_supply (old : Settings) (s : State) :
    (s.applyPanelSettings old).supply = s.supply := by
  simp only [State.applyPanelSettings, apply_ite State.supply,
    foldl_supply State.rejudgePanel_supply,
    foldl_supply fun s n => State.retirePanel_supply n s, ite_self]

@[simp] theorem State.bringInForce_supply (s : State) : s.bringInForce.supply = s.supply := by
  unfold State.bringInForce
  split
  · exact State.applyPanelSettings_supply _ _
  · rfl

/-! ## The winch engine -/

@[simp] theorem State.stopJamTiming_supply (s : State) : s.stopJamTiming.supply = s.supply := by
  rw [State.stopJamTiming_eq]

@[simp] theorem State.stopWinch_supply (r : StopReason) (s : State) :
    (s.stopWinch r).supply = s.supply := State.stopJamTiming_supply _

@[simp] theorem State.winchTrip_supply (s : State) : s.winchTrip.supply = s.supply := by
  unfold State.winchTrip
  split
  case h_4 | h_5 => rfl
  all_goals exact State.stopWinch_supply _ s

@[simp] theorem State.winchJam_supply (s : State) : s.winchJam.supply = s.supply := by
  unfold State.winchJam
  split
  · exact State.stopWinch_supply _ _
  · rfl

/-! ## The grout engine and the batch queue -/

@[simp] theorem State.timeBreak_supply (s : State) : s.timeBreak.supply = s.supply := by
  simp only [State.timeBreak, apply_ite State.supply, State.insertMark_supply, ite_self]

@[simp] theorem State.pauseGrout_supply (r : PauseReason) (s : State) :
    (s.pauseGrout r).supply = s.supply := State.timeBreak_supply _

@[simp] theorem State.groutTrip_supply (s : State) : s.groutTrip.supply = s.supply := by
  simp only [State.groutTrip, apply_ite State.supply, State.pauseGrout_supply, ite_self]

@[simp] theorem State.reportGrout_supply (o : GroutOutcome) (s : State) :
    (s.reportGrout o).supply = s.supply := by
  unfold State.reportGrout
  split <;> rfl

@[simp] theorem State.endGrout_supply (o : GroutOutcome) (s : State) :
    (s.endGrout o).supply = s.supply := State.reportGrout_supply _ _

@[simp] theorem State.groutLoseQueue_supply (s : State) : s.groutLoseQueue.supply = s.supply :=
  State.timeBreak_supply _

@[simp] theorem State.removeBatch_supply (id : Nat) (s : State) :
    (s.removeBatch id).supply = s.supply := by
  simp only [State.removeBatch, State.groutRemoval, apply_ite State.supply, State.pauseGrout_supply,
    State.groutLoseQueue_supply, ite_self]
  rfl

/-! ## The stress engine -/

@[simp] theorem State.enterUnloading_supply (code : TestCode) (s : State) :
    (s.enterUnloading code).supply = s.supply := by rw [State.enterUnloading_eq]

@[simp] theorem State.suspend_supply (k : ResumeKind) (s : State) :
    (s.suspend k).supply = s.supply := rfl

@[simp] theorem State.abortedEnd_supply (code : TestCode) (counted : Bool) (s : State) :
    (s.abortedEnd code counted).supply = s.supply := by
  unfold State.abortedEnd
  split <;> rfl

@[simp] theorem State.evaluatedEnd_supply (result : TestCode) (s : State) :
    (s.evaluatedEnd result).supply = s.supply := by
  unfold State.evaluatedEnd
  split <;> rfl

@[simp] theorem State.endTest_supply (code : TestCode) (counted : Bool) (s : State) :
    (s.endTest code counted).supply = s.supply := by
  simp only [State.endTest, State.raise_supply, apply_ite State.supply, State.abortedEnd_supply,
    State.evaluatedEnd_supply, State.stopJack_supply, ite_self]

@[simp] theorem State.endWaiting_supply (code : TestCode) (counted : Bool) (s : State) :
    (s.endWaiting code counted).supply = s.supply := State.endTest_supply _ _ _

@[simp] theorem State.abortTest_supply (code : TestCode) (s : State) :
    (s.abortTest code).supply = s.supply := by
  simp only [State.abortTest, apply_ite State.supply, State.endWaiting_supply,
    State.enterUnloading_supply, ite_self]

@[simp] theorem State.stressTrip_supply (s : State) : s.stressTrip.supply = s.supply := by
  unfold State.stressTrip
  split
  case h_1 | h_9 | h_10 => rfl
  case h_2 => exact State.endWaiting_supply _ _ s
  case h_3 | h_4 | h_5 => exact State.enterUnloading_supply _ _
  case h_6 | h_7 | h_8 => split <;> rfl

@[simp] theorem State.acceptTest_supply (s : State) : s.acceptTest.supply = s.supply := rfl

@[simp] theorem State.evaluateLength_supply (s : State) : s.evaluateLength.supply = s.supply := by
  unfold State.evaluateLength
  split
  · rfl
  · simp only [apply_ite State.supply, State.enterUnloading_supply, State.acceptTest_supply,
      ite_self]

@[simp] theorem State.progress_supply (s : State) : s.progress.supply = s.supply := by
  simp only [State.progress, apply_ite State.supply, State.evaluateLength_supply,
    State.suspend_supply, State.startRamp_supply, ite_self]

@[simp] theorem State.judgeCreep_supply (figure : Int) (s : State) :
    (s.judgeCreep figure).supply = s.supply := by
  simp only [State.judgeCreep, apply_ite State.supply, State.progress_supply,
    State.enterUnloading_supply, ite_self]

@[simp] theorem State.afterHold_supply (i : Nat) (st : Step) (s : State) :
    (s.afterHold i st).supply = s.supply := by
  simp only [State.afterHold, State.extendHold, apply_ite State.supply, State.progress_supply,
    State.judgeCreep_supply, State.addCreep_supply, State.insertMark_supply, ite_self]

@[simp] theorem State.endMakeUp_supply (s : State) : s.endMakeUp.supply = s.supply := by
  simp only [State.endMakeUp, apply_ite State.supply, State.writeDuty_supply, ite_self]

@[simp] theorem State.recordStepEnd_supply (st : Step) (s : State) :
    (s.recordStepEnd st).supply = s.supply := by
  simp only [State.recordStepEnd, apply_ite State.supply, State.record_supply,
    State.recordLatest_supply, ite_self]

@[simp] theorem State.stressHoldEnd_supply (i : Nat) (s : State) :
    (s.stressHoldEnd i).supply = s.supply := by
  unfold State.stressHoldEnd
  split
  · split
    · rw [State.afterHold_supply, State.recordStepEnd_supply, State.endMakeUp_supply]
    · rfl
  · rfl

@[simp] theorem State.stressSeat_supply (s : State) : s.stressSeat.supply = s.supply := by
  unfold State.stressSeat
  split <;> rfl

@[simp] theorem State.stressCreep_supply (i : Nat) (s : State) :
    (s.stressCreep i).supply = s.supply := by
  unfold State.stressCreep
  split <;> rfl

/-! ## Every owner of a mark, and every engine -/

/-- No owner's handling of a mark reaches the arbiter but by what it sends. -/
theorem State.expired_supply (n : MarkName) (s : State) : (s.expired n).supply = s.supply := by
  cases n with
  | staleness panel => exact State.changePanel_supply panel .stale s
  | expiry id => exact State.removeBatch_supply id s
  | jam => exact State.winchJam_supply s
  | coldJoint =>
    simp only [State.expired, State.groutColdJoint, apply_ite State.supply, State.endGrout_supply,
      ite_self]
  | refusal =>
    simp only [State.expired, State.groutRefusal, apply_ite State.supply, State.endGrout_supply,
      ite_self]
  | holdEnd i => exact State.stressHoldEnd_supply i s
  | seat i => exact State.stressSeat_supply s
  | creep i point => exact State.stressCreep_supply i s
  | suspension i =>
    simp only [State.expired, State.stressSuspension, apply_ite State.supply,
      State.abortTest_supply, ite_self]

theorem State.expireHeads_supply (n : Nat) (s : State) : (s.expireHeads n).supply = s.supply := by
  induction n generalizing s with
  | zero => rfl
  | succ n ih =>
    unfold State.expireHeads
    split
    · rfl
    · rw [ih]
      rcases State.expireHead_cases (fun _ => true) s with e | ⟨m, rest, -, -, -, e⟩
      · rw [e]
      · rw [e, State.expired_supply]

/-- The expiry of every due mark leaves the arbiter. -/
theorem State.expireDue_supply (s : State) : s.expireDue.supply = s.supply := by
  simp only [State.expireDue, State.whenPowered, apply_ite State.supply, State.expireHeads_supply,
    ite_self]

/-- No engine's handling of a trip reaches the arbiter but by what it sends. -/
theorem State.engineTrip_supply (e : Engine) (s : State) : (s.engineTrip e).supply = s.supply := by
  cases e with
  | winch => exact State.winchTrip_supply s
  | grout => exact State.groutTrip_supply s
  | stress => exact State.stressTrip_supply s

end Sys2Proof.Machine
end

section
/-! SUPPORT. The supply's safety: under a trip no flow and every output off, sound duties, and
grants within the capacity, as every command keeps them. -/

namespace Sys2Proof.Machine

/-! ## Sound outputs (R68, R69) -/

theorem Output.sound_iff (o : Output) :
    o.sound = true ↔ o.set ≤ 1000 ∧ o.driven ≤ 1000 ∧ (o.set = 0 → o.driven = 0) := by
  simp [Output.sound, and_assoc, or_iff_not_imp_left]

theorem Output.sound_write {o : Output} (h : o.sound = true) {d : Nat} (hd : d ≤ 1000) :
    (o.write d).sound = true := by
  rw [Output.sound_iff] at h ⊢
  by_cases h0 : d = 0 <;> simp [Output.write, h0, hd, h.2.1]

theorem Output.sound_off (o : Output) : o.off.sound = true := rfl

theorem Output.sound_period {o : Output} (h : o.sound = true) (hz : Nat) :
    (o.period hz).sound = true := by
  rw [Output.sound_iff] at h ⊢
  exact ⟨h.1, h.1, id⟩

theorem Outputs.sound_iff (os : Outputs) : os.sound = true ↔
    (∀ v, (os.get v).sound = true) ∧ (os.jackAdvance.set = 0 ∨ os.jackRelease.set = 0) := by
  simp only [Outputs.sound, Bool.and_eq_true, Bool.or_eq_true, beq_iff_eq]
  constructor
  · rintro ⟨⟨⟨⟨hw, hp⟩, ha⟩, hr⟩, hjack⟩
    exact ⟨fun v => by cases v <;> assumption, hjack⟩
  · rintro ⟨hall, hjack⟩
    exact ⟨⟨⟨⟨hall .winch, hall .pump⟩, hall .jackAdvance⟩, hall .jackRelease⟩, hjack⟩

/-- A duty written keeps the outputs sound, the interlock of the jack among them. -/
theorem Outputs.sound_write {os : Outputs} (h : os.sound = true) (v : Valve) {d : Nat}
    (hd : d ≤ 1000) : (os.write v d).sound = true := by
  rw [Outputs.sound_iff] at h ⊢
  obtain ⟨hall, hjack⟩ := h
  refine ⟨fun w => ?_, ?_⟩
  · by_cases hw : w = v
    · rw [hw, Outputs.get_write_same]
      exact Output.sound_write (hall v) hd
    by_cases hlock : Interlocked v w d os
    · rw [Outputs.get_write_interlocked hlock]
      exact Output.sound_off _
    · rw [Outputs.get_write_other hw hlock]
      exact hall w
  · cases v with
    | winch | pump => exact hjack
    | jackAdvance =>
      rcases Nat.eq_zero_or_pos d with hd | hd
      · exact .inl hd
      · refine .inr ?_
        rcases Nat.eq_zero_or_pos os.jackRelease.set with hr | hr
        · simp [Outputs.write, hr]
        · simp [Outputs.write, hd, hr, Output.off]
    | jackRelease =>
      rcases Nat.eq_zero_or_pos d with hd | hd
      · exact .inr hd
      · refine .inl ?_
        rcases Nat.eq_zero_or_pos os.jackAdvance.set with ha | ha
        · simp [Outputs.write, ha]
        · simp [Outputs.write, hd, ha, Output.off]

theorem Outputs.sound_period {os : Outputs} (h : os.sound = true) (v : Valve) (hz : Nat) :
    (os.modify v (Output.period hz)).sound = true := by
  rw [Outputs.sound_iff] at h ⊢
  obtain ⟨hall, hjack⟩ := h
  refine ⟨fun w => ?_, ?_⟩
  · by_cases hw : w = v
    · rw [hw, Outputs.get_modify_same]
      exact Output.sound_period (hall v) hz
    · rw [Outputs.get_modify_other hw]
      exact hall w
  · cases v <;> exact hjack

theorem Outputs.isOff_iff (os : Outputs) :
    os.isOff = true ↔ ∀ v, (os.get v).set = 0 ∧ (os.get v).driven = 0 := by
  simp only [Outputs.isOff, Output.isOff, Bool.and_eq_true, beq_iff_eq]
  constructor
  · rintro ⟨⟨⟨hw, hp⟩, ha⟩, hr⟩ v
    cases v <;> assumption
  · exact fun h => ⟨⟨⟨h .winch, h .pump⟩, h .jackAdvance⟩, h .jackRelease⟩

/-- A period's start drives no output whose set duty is 0. -/
theorem Outputs.isOff_period {os : Outputs} (h : os.isOff = true) (v : Valve) (hz : Nat) :
    (os.modify v (Output.period hz)).isOff = true := by
  rw [Outputs.isOff_iff] at h ⊢
  intro w
  by_cases hw : w = v
  · rw [hw, Outputs.get_modify_same]
    exact ⟨(h v).1, (h v).1⟩
  · rw [Outputs.get_modify_other hw]
    exact h w

/-! ## The latch (R62, R65, R70) -/

@[simp] theorem Supply.put_latched (e : Engine) (f : FlowState) (sup : Supply) :
    (sup.put e f).latched = sup.latched := by
  cases e <;> rfl

theorem Supply.foldl_grantOne_latched (granted : List Claim) (sup : Supply) :
    (granted.foldl Supply.grantOne sup).latched = sup.latched := by
  induction granted generalizing sup with
  | nil => rfl
  | cons c rest ih => exact (ih _).trans (Supply.put_latched _ _ sup)

@[simp] theorem Supply.pass_latched (capacity : Nat) (sup : Supply) :
    (sup.pass capacity).latched = sup.latched := Supply.foldl_grantOne_latched _ _

theorem State.grantPass_supply (s : State) :
    s.grantPass.supply = s.supply.pass s.settings.capacity := rfl

theorem State.acceptRelease_latched (e : Engine) (s : State) :
    (s.acceptRelease e).supply.latched = s.supply.latched := by
  unfold State.acceptRelease
  split <;> simp [State.grantPass_supply]

theorem State.tripSafe_iff (s : State) : s.tripSafe = true ↔
    (s.supply.latched = true → (∀ e, s.supply.flowOf e = .idle) ∧ s.supply.queue = [] ∧
      s.outputs.isOff = true) := by
  simp only [State.tripSafe, Bool.or_eq_true, Bool.not_eq_true', Bool.and_eq_true, beq_iff_eq,
    List.isEmpty_iff, ← Bool.not_eq_true, ← imp_iff_not_or]
  refine imp_congr_right fun _ => ⟨?_, ?_⟩
  · rintro ⟨⟨⟨⟨hw, hg⟩, hs⟩, hq⟩, ho⟩
    exact ⟨fun e => by cases e <;> assumption, hq, ho⟩
  · rintro ⟨hflow, hq, ho⟩
    exact ⟨⟨⟨⟨hflow .winch, hflow .grout⟩, hflow .stress⟩, hq⟩, ho⟩

/-- The trip's promise and sound outputs. -/
def State.outputsSafe (s : State) : Prop := s.tripSafe = true ∧ s.outputs.sound = true

theorem State.outputsSafe_congr {s t : State} (h : s.outputsSafe) (hsupply : t.supply = s.supply)
    (houtputs : t.outputs = s.outputs) : t.outputsSafe := by
  obtain ⟨htrip, hsound⟩ := h
  rw [State.tripSafe_iff] at htrip
  rw [State.outputsSafe, State.tripSafe_iff, hsupply, houtputs]
  exact ⟨htrip, hsound⟩

/-- With the latch clear only the duties count. -/
theorem State.outputsSafe_of_clear {s : State} (hl : s.supply.latched = false)
    (h : s.outputs.sound = true) : s.outputsSafe :=
  ⟨(State.tripSafe_iff s).mpr fun ht => by simp [hl] at ht, h⟩

theorem State.outputsSafe_writeDuty {s : State} (h : s.outputsSafe) (e : Engine) (v : Valve)
    (d : Nat) : (s.writeDuty e v d).outputsSafe := by
  by_cases hr : s.supply.latched = true ∨ valveOwner v ≠ e
  · rw [State.writeDuty_refused hr]
    exact h
  · have hw : (s.writeDuty e v d).outputs = s.outputs.write v (min d 1000) := if_neg hr
    refine State.outputsSafe_of_clear (by simpa using fun hl => hr (.inl hl)) ?_
    rw [hw]
    exact Outputs.sound_write h.2 v (Nat.min_le_right _ _)

theorem State.outputsSafe_period {s : State} (h : s.outputsSafe) (v : Valve) (hz : Nat) :
    State.outputsSafe { s with outputs := s.outputs.modify v (Output.period hz) } := by
  obtain ⟨htrip, hsound⟩ := h
  refine ⟨(State.tripSafe_iff _).mpr fun hl => ?_, Outputs.sound_period hsound v hz⟩
  obtain ⟨hflow, hqueue, hoff⟩ := (State.tripSafe_iff s).mp htrip hl
  exact ⟨hflow, hqueue, Outputs.isOff_period hoff v hz⟩

/-- A release under a trip finds nothing granted and nothing queued. -/
theorem State.outputsSafe_acceptRelease {s : State} (h : s.outputsSafe) (e : Engine) :
    (s.acceptRelease e).outputsSafe := by
  cases hl : s.supply.latched with
  | true =>
    obtain ⟨hflow, -, -⟩ := (State.tripSafe_iff s).mp h.1 hl
    have hnone : (s.supply.flowOf e).status = .none := by rw [hflow e]; rfl
    rw [State.acceptRelease, hnone]
    exact h
  | false =>
    refine State.outputsSafe_of_clear ((State.acceptRelease_latched e s).trans hl) ?_
    have houtputs : (s.acceptRelease e).outputs = s.outputs := by
      unfold State.acceptRelease
      split <;> rfl
    rw [houtputs]
    exact h.2

theorem keeps_outputsSafe : Keeps State.outputsSafe where
  free h e := State.outputsSafe_congr h (congrArg Guarded.supply e) (congrArg Guarded.outputs e)
  insertMark _ _ h := h
  dropMarks _ h := h
  headMark h _ := h
  duty e v d h := State.outputsSafe_writeDuty h e v d
  period v hz h := State.outputsSafe_period h v hz
  claim {s} _ _ h hl _ := State.outputsSafe_of_clear
    (by simp [State.acceptClaim, State.grantPass_supply, hl]) h.2
  release e h := State.outputsSafe_acceptRelease h e
  line _ h := h
  trip {s} h _ := ⟨(State.tripSafe_iff _).mpr fun _ =>
      ⟨fun e => by cases e <;> rfl, rfl, rfl⟩, rfl⟩
  clear h := State.outputsSafe_of_clear rfl h.2
  raise _ h := h
  port _ _ h _ := h
  records _ h _ := h
  found _ h _ _ := h
  slot _ h := h
  declare _ h _ _ _ := h
  withdraw h _ _ := h
  panel _ _ h _ := h
  ask _ _ _ h := h
  settle _ h _ := h
  stage _ _ h _ := h
  profile _ _ _ h := h
  unstage h := h

/-- The latch and the outputs as a start-up leaves them (R67, R70). -/
theorem State.outputsSafe_started {s : State} {tripLow : Bool}
    (hsupply : s.supply = .atStartUp tripLow) (houtputs : s.outputs = .atStartUp) :
    s.outputsSafe := by
  refine ⟨(State.tripSafe_iff s).mpr fun _ => ?_, by rw [houtputs]; rfl⟩
  rw [hsupply, houtputs]
  exact ⟨fun e => by cases e <;> rfl, rfl, rfl⟩

theorem State.outputsSafe_finishStartUp {s : State} (h : s.outputsSafe) (run : ScanRun) :
    (s.finishStartUp run).outputsSafe := by
  have hscan : (s.scanJournal run).outputsSafe := by
    rw [State.scanJournal_eq]
    exact State.outputsSafe_congr h rfl rfl
  exact State.outputsSafe_congr
    (keeps_outputsSafe.fixUpSlot (keeps_outputsSafe.fixUpRecords hscan)) rfl rfl

theorem exec_outputsSafe (c : Instr) {s : State} (h : s.outputsSafe) :
    After State.outputsSafe (exec c s) := by
  have hdue : s.expireDue.outputsSafe := keeps_outputsSafe.expireDue h
  refine keeps_outputsSafe.exec_of h ?_ ?_ ?_ ?_
  · rintro cause pins phases run rfl
    show After _ (onStartUp cause pins phases run s.expireDue)
    unfold onStartUp
    split
    · exact hdue
    · exact State.outputsSafe_started rfl rfl
  · rintro phases run rfl
    exact Keeps.powered (P := State.outputsSafe) hdue fun _ _ => State.outputsSafe_started rfl rfl
  · rintro run rfl
    show After _ (onStartUpScanDone run s.expireDue)
    unfold onStartUpScanDone
    split
    · exact hdue
    · exact State.outputsSafe_finishStartUp hdue run
  · rintro run rfl
    exact keeps_outputsSafe.appended (fun hu _ => hu) run h

/-! ## Grants within the capacity (R58, R62) -/

/-- The flows granted fit the pack's capacity. -/
def State.grantsFit (s : State) : Prop := s.supply.granted ≤ s.settings.capacity

theorem Supply.granted_put_le (e : Engine) (f : FlowState) (sup : Supply) :
    (sup.put e f).granted ≤ sup.granted + f.flow := by
  cases e <;> simp only [Supply.put, Supply.granted] <;> omega

/-- What is granted in a row adds at most the demands. -/
theorem Supply.granted_foldl_le (granted : List Claim) (sup : Supply) :
    (granted.foldl Supply.grantOne sup).granted ≤ sup.granted + (granted.map Claim.demand).sum := by
  induction granted generalizing sup with
  | nil => exact Nat.le_refl _
  | cons c rest ih =>
    have hone := Supply.granted_put_le c.engine ⟨.granted, c.demand⟩ sup
    have hrest := ih (sup.grantOne c)
    simp only [List.foldl_cons, List.map_cons, List.sum_cons, Supply.grantOne] at hone hrest ⊢
    omega

/-- A grant pass gives no more than the free flow. -/
theorem Supply.granted_pass_le {sup : Supply} {capacity : Nat} (h : sup.granted ≤ capacity) :
    (sup.pass capacity).granted ≤ capacity := by
  obtain ⟨-, hsum, -⟩ := grantPass_spec (sup.free capacity) sup.queue
  have hpass : (sup.pass capacity).granted ≤
      sup.granted + ((Machine.grantPass (sup.free capacity) sup.queue).1.map Claim.demand).sum :=
    Supply.granted_foldl_le _ _
  simp only [Supply.free] at hsum hpass
  omega

theorem State.grantsFit_congr {s t : State} (h : s.grantsFit) (hsupply : t.supply = s.supply)
    (hsettings : t.settings = s.settings) : t.grantsFit := by
  rw [State.grantsFit, hsupply, hsettings]
  exact h

/-- An engine's flow taken back and a grant pass after it. -/
theorem State.grantsFit_putPass {s t : State} (h : s.grantsFit) (e : Engine) {f : FlowState}
    (hf : f.flow = 0) (ht : t.supply.granted = (s.supply.put e f).granted)
    (hsettings : t.settings = s.settings) : t.grantPass.grantsFit := by
  have hput := Supply.granted_put_le e f s.supply
  refine Supply.granted_pass_le ?_
  rw [ht, hsettings]
  exact Nat.le_trans hput (by rw [hf]; exact h)

theorem State.grantsFit_acceptRelease {s : State} (h : s.grantsFit) (e : Engine) :
    (s.acceptRelease e).grantsFit := by
  unfold State.acceptRelease
  split
  · exact h
  · exact State.grantsFit_putPass h e (f := .idle) rfl rfl rfl
  · exact State.grantsFit_putPass h e (f := .idle) rfl rfl rfl

theorem keeps_grantsFit : Keeps State.grantsFit where
  free h e := State.grantsFit_congr h (congrArg Guarded.supply e) (congrArg Guarded.settings e)
  insertMark _ _ h := h
  dropMarks _ h := h
  headMark h _ := h
  duty _ _ _ h := h
  period _ _ h := h
  claim e _ h _ _ := State.grantsFit_putPass h e (f := ⟨.queued, 0⟩) rfl rfl rfl
  release e h := State.grantsFit_acceptRelease h e
  line _ h := h
  trip _ _ := Nat.zero_le _
  clear h := h
  raise _ h := h
  port _ _ h _ := h
  records _ h _ := h
  found _ h _ _ := h
  slot _ h := h
  declare _ h _ _ _ := h
  withdraw h _ _ := h
  panel _ _ h _ := h
  ask _ _ _ h := h
  settle _ h _ := h
  stage _ _ h _ := h
  profile _ _ _ h := h
  unstage h := h

/-- Where nothing is granted the grants fit, whatever the capacity. -/
theorem State.grantsFit_of_none {s : State} (h : s.supply.granted = 0) : s.grantsFit := by
  rw [State.grantsFit, h]
  exact Nat.zero_le _

theorem exec_grantsFit {c : Instr} (hscan : ∀ run, c ≠ .startUpScanDone run)
    (happend : ∀ run, c ≠ .appendCompletion run) {s : State} (h : s.grantsFit) :
    After State.grantsFit (exec c s) := by
  have hdue : s.expireDue.grantsFit := keeps_grantsFit.expireDue h
  refine keeps_grantsFit.exec_of h ?_ ?_ (fun run hc => absurd hc (hscan run))
    (fun run hc => absurd hc (happend run))
  · rintro cause pins phases run rfl
    show After _ (onStartUp cause pins phases run s.expireDue)
    unfold onStartUp
    split
    · exact hdue
    · exact State.grantsFit_of_none rfl
  · rintro phases run rfl
    exact Keeps.powered (P := State.grantsFit) hdue fun _ _ => State.grantsFit_of_none rfl

/-! ## New settings in force (R58) -/

/-- The scan brings settings into force; before any grant the grants fit them. -/
theorem exec_startUpScanDone_grantsFit (run : ScanRun) {s : State} (h : s.supply.granted = 0) :
    After State.grantsFit (exec (.startUpScanDone run) s) := by
  have hdue : s.expireDue.supply.granted = 0 := by rw [State.expireDue_supply, h]
  show After _ (onStartUpScanDone run s.expireDue)
  unfold onStartUpScanDone
  split
  · exact State.grantsFit_of_none hdue
  · have hscan : (s.expireDue.scanJournal run).grantsFit :=
      State.grantsFit_of_none (by rw [State.scanJournal_eq]; exact hdue)
    exact State.grantsFit_congr
      (keeps_grantsFit.fixUpSlot (keeps_grantsFit.fixUpRecords hscan)) rfl rfl

/-- The settings in force survive every shared operation. -/
theorem keeps_settings (c : Settings) : Keeps fun s => s.settings = c where
  free h e := (congrArg Guarded.settings e).trans h
  insertMark _ _ h := h
  dropMarks _ h := h
  headMark h _ := h
  duty _ _ _ h := h
  period _ _ h := h
  claim _ _ h _ _ := h
  release e h := (State.acceptRelease_settings e _).trans h
  line _ h := h
  trip h _ := h
  clear h := h
  raise _ h := h
  port _ _ h _ := h
  records _ h _ := h
  found _ h _ _ := h
  slot _ h := h
  declare _ h _ _ _ := h
  withdraw h _ _ := h
  panel _ _ h _ := h
  ask _ _ _ h := h
  settle _ h _ := h
  stage _ _ h _ := h
  profile _ _ _ h := h
  unstage h := h

/-- A claim or a release makes the same of the arbiter in states that agree on it and on the
settings. -/
theorem State.arrive_supply_congr {s t : State} (hsupply : s.supply = t.supply)
    (hsettings : s.settings = t.settings) (d : Delivery) :
    (s.arrive d).supply = (t.arrive d).supply := by
  unfold State.arrive
  split
  next e demand =>
    simp only [State.decideClaim, apply_ite State.supply, State.engineTrip_supply,
      State.acceptClaim, State.grantPass_supply, hsupply, hsettings]
  next e =>
    unfold State.acceptRelease
    rw [hsupply]
    split <;> simp only [State.grantPass_supply, hsupply, hsettings]
  next => exact hsupply

theorem foldl_arrive_supply_congr (ds : List Delivery) {s t : State} (hsupply : s.supply = t.supply)
    (hsettings : s.settings = t.settings) :
    (ds.foldl State.arrive s).supply = (ds.foldl State.arrive t).supply := by
  induction ds generalizing s t with
  | nil => exact hsupply
  | cons d rest ih =>
    have hs : (s.arrive d).settings = s.settings := (keeps_settings s.settings).arrive d rfl
    have ht : (t.arrive d).settings = t.settings := (keeps_settings t.settings).arrive d rfl
    exact ih (State.arrive_supply_congr hsupply hsettings d) (by rw [hs, ht, hsettings])

theorem State.arrivals_supply_congr {s t : State} (hsupply : s.supply = t.supply)
    (hsettings : s.settings = t.settings) (hdeliveries : s.deliveries = t.deliveries) :
    s.arrivals.supply = t.arrivals.supply := by
  unfold State.arrivals
  rw [hdeliveries]
  exact foldl_arrive_supply_congr _ hsupply hsettings

@[simp] theorem State.journalEvents_supply (s : State) : s.journalEvents.supply = s.supply := by
  simp only [State.journalEvents, apply_ite State.supply, State.raise_supply, ite_self]

@[simp] theorem State.journalEvents_settings (s : State) :
    s.journalEvents.settings = s.settings := by
  simp only [State.journalEvents, apply_ite State.settings, State.raise_settings, ite_self]

@[simp] theorem State.journalEvents_deliveries (s : State) :
    s.journalEvents.deliveries = s.deliveries := by
  simp only [State.journalEvents, apply_ite State.deliveries, State.raise_deliveries, ite_self]

/-- A commit's completion brings settings into force when nothing is granted once the claims and
releases in flight have arrived. -/
theorem State.grantsFit_completeCommit {s : State} (h : s.grantsFit)
    (harrived : s.arrivals.supply.granted = 0) (p : PortNo) (index : Option Nat) :
    (s.completeCommit p index).grantsFit := by
  unfold State.completeCommit
  split
  · refine State.grantsFit_of_none ?_
    rw [State.answer_supply, State.bringInForce_supply]
    exact harrived
  · exact keeps_grantsFit.answer _ _ _ (keeps_grantsFit.unstage h)

theorem State.grantsFit_completeAppend {s : State} (h : s.grantsFit)
    (harrived : s.arrivals.supply.granted = 0) (run : AppendRun) :
    (s.completeAppend run).grantsFit := by
  unfold State.completeAppend
  split
  · exact h
  next a _ =>
    obtain ⟨t, ht⟩ : ∃ t, t = State.journalEvents
      { s with journal := (s.journal.append a run).settle } := ⟨_, rfl⟩
    have hsupply : t.supply = s.supply := by rw [ht, State.journalEvents_supply]
    have hsettings : t.settings = s.settings := by rw [ht, State.journalEvents_settings]
    have hdeliveries : t.deliveries = s.deliveries := by rw [ht, State.journalEvents_deliveries]
    have hfit : t.grantsFit := State.grantsFit_congr h hsupply hsettings
    simp only [← ht]
    unfold State.tellAsker
    split
    · exact keeps_grantsFit.completeCertificate _ hfit
    · refine State.grantsFit_completeCommit hfit ?_ _ _
      rw [State.arrivals_supply_congr hsupply hsettings hdeliveries]
      exact harrived

theorem exec_appendCompletion_grantsFit {s : State} (hd : s.noneDue = true) (h : s.grantsFit)
    (harrived : s.arrivals.supply.granted = 0) (run : AppendRun) :
    After State.grantsFit (exec (.appendCompletion run) s) := by
  show State.grantsFit (s.expireDue.whenPowered fun u => u.completeAppend run)
  rw [State.expireDue_noneDue hd]
  unfold State.whenPowered
  split
  · exact State.grantsFit_completeAppend h harrived run
  · exact h

end Sys2Proof.Machine

namespace Sys2Proof.Proofs

open Sys2Proof.Machine

/-- Settles O55: the outputs' safety survives every command; the grants fit after every grant pass,
and new settings come into force where nothing is granted. -/
theorem supplySafetyIsKept : Obligations.SupplySafetyIsKept := by
  refine ⟨fun s t htrip hsound hst => ?_, fun c rest s t hp h hst => ?_⟩
  · cases hp : s.pending with
    | nil =>
      simp only [step, hp] at hst
      cases hst
      exact ⟨htrip, hsound⟩
    | cons c rest =>
      have hexec : After State.outputsSafe (exec c { s with pending := rest }) :=
        exec_outputsSafe c ⟨htrip, hsound⟩
      rw [← step_cons hp, hst] at hexec
      exact hexec
  · have hfit : State.grantsFit { s with pending := rest } := h
    rw [step_cons hp] at hst
    refine ⟨fun happend hscan => ?_, fun run hc hnone => ?_, fun run hc hd harrived => ?_⟩
    · have hexec := exec_grantsFit hscan happend hfit
      rw [hst] at hexec
      exact hexec
    · have hexec := exec_startUpScanDone_grantsFit run (s := { s with pending := rest }) hnone
      rw [← hc, hst] at hexec
      exact hexec
    · have hsame : (State.arrivals { s with pending := rest }).supply = s.arrivals.supply :=
        State.arrivals_supply_congr rfl rfl rfl
      have hexec := exec_appendCompletion_grantsFit (s := { s with pending := rest }) hd hfit
        (by rw [hsame, harrived]) run
      rw [← hc, hst] at hexec
      exact hexec

end Sys2Proof.Proofs
end

section
/-! SUPPORT. The wall panels: a change of a panel's state, a reading dropped or taken, the panels of
a READ_PANELS reply, and what new settings make of the table. -/

namespace Sys2Proof.Machine

/-! ## A change of a panel's state (R80) -/

/-- The record at an index of the table, after the record of panel n is changed. -/
theorem State.modifyPanel_getElem? (n i : Nat) (f : Panel → Panel) (s : State) :
    (s.modifyPanel n f).panels[i]? = if i + 1 = n then s.panels[i]?.map f else s.panels[i]? := by
  cases n with
  | zero => rfl
  | succ j =>
    simp only [State.modifyPanel, putPanel, panelAt, Nat.add_sub_cancel, Nat.succ_ne_zero, if_false,
      List.getElem?_set, Nat.add_right_cancel_iff, eq_comm (a := i)]
    by_cases hj : j = i
    · subst hj
      by_cases hlen : j < s.panels.length <;> simp [hlen]
    · simp only [hj, if_false]

theorem State.changePanel_eq {s : State} {n : Nat} {x : Panel} (hn : 1 ≤ n)
    (hx : s.panels[n - 1]? = some x) (new : PanelState) :
    s.changePanel n new =
      if x.state = new then s
      else
        { s with
          panels := s.panels.set (n - 1) { x with state := new, changes := (x.changes + 1) % 65536 }
          ports := s.ports.raise .panelChange
          deliveries := s.deliveries ++ [.panelChange n x.state new] } := by
  have hat : panelAt s.panels n = x := by simp [panelAt, hx]
  simp only [State.changePanel, hat, State.modifyPanel_eq hn hx]
  rfl

/-- A flag that is set stays set when its event is raised again (R189). -/
theorem Ports.raise_raise (e : Event) (ps : Ports) : (ps.raise e).raise e = ps.raise e := by
  have hport : ∀ p : Port, (p.raise e).raise e = p.raise e := fun p => by
    by_cases h : p.role = .disabled <;> simp [Port.raise, h, BitVec.or_assoc]
  simp only [Ports.raise, hport]

/-! ## One reading of a POST_WALL (R77, R78) -/

/-- The first check that a reading of a known panel fails. -/
theorem readingDropped_eq {r : WallReading} {s : State} {old : Panel}
    (hold : s.panels[r.panel - 1]? = some old) :
    readingDropped r s =
      if r.panel = 0 ∨ s.settings.panelCount < r.panel then some .noPanel
      else if s.clock.time / 1024 + 60 < r.time then some .ahead
      else if (old.reading.any fun x => decide (r.time ≤ x.2)) = true then some .old
      else none := by
  have hat : panelAt s.panels r.panel = old := by simp [panelAt, hold]
  have hlate : (!laterThan r.time old) = old.reading.any fun x => decide (r.time ≤ x.2) := by
    cases hr : old.reading <;> simp [laterThan, hr, ← decide_not]
  rw [readingDropped, hat, hlate]
  rfl

/-- All that a reading taken does to the state. -/
theorem State.takeReading_eq {r : WallReading} {s : State} {old : Panel} (hn : 1 ≤ r.panel)
    (hold : s.panels[r.panel - 1]? = some old) {d : Int} (hd : d = clampDeflection r.deflection)
    {new : PanelState} (hnew : new = derivedState s.settings d) :
    s.takeReading r =
      { s with
        panels := s.panels.set (r.panel - 1)
          { old with
            state := new, reading := some (d, r.time)
            changes := if old.state = new then old.changes else (old.changes + 1) % 65536 }
        marks := placeMark
          ⟨min ((r.time + s.settings.stalePeriod) * 1024) Config.maxTime, .staleness r.panel⟩
          (s.marks.filter fun m => m.name != .staleness r.panel)
        ports := if old.state = new then s.ports else s.ports.raise .panelChange
        deliveries := if old.state = new then s.deliveries
          else s.deliveries ++ [.panelChange r.panel old.state new] } := by
  have hlt : r.panel - 1 < s.panels.length := (List.getElem?_eq_some_iff.mp hold).1
  have hread : (s.modifyPanel r.panel fun x => { x with reading := some (d, r.time) }).panels[
      r.panel - 1]? = some { old with reading := some (d, r.time) } := by
    simp [State.modifyPanel_eq hn hold, hlt]
  rw [State.takeReading, ← hd, ← hnew, State.changePanel_eq hn hread,
    State.modifyPanel_eq hn hold, List.set_set]
  by_cases hsame : old.state = new
  · subst hsame
    simp only [if_true]
    rfl
  · simp only [hsame, if_false]
    rfl

theorem clampDeflection_eq_self (d : Int) :
    clampDeflection d = d ↔ -3000 ≤ d ∧ d ≤ 3000 := by
  unfold clampDeflection
  omega

/-! ## The readings of a POST_WALL (R76) -/

@[simp] theorem wallReadingsAt_length (ps : List Byte) (i n : Nat) :
    (wallReadingsAt ps i n).length = n := by
  induction n generalizing i with
  | zero => rfl
  | succ n ih => exact congrArg Nat.succ (ih (i + 7))

@[simp] theorem State.wallReadings_length (rs : List WallReading) (s : State) :
    (s.wallReadings rs).2.length = rs.length := by
  induction rs generalizing s with
  | nil => rfl
  | cons r rest ih => exact congrArg Nat.succ (ih _)

theorem State.wallReadings_state (rs : List WallReading) (s : State) :
    (s.wallReadings rs).1 = rs.foldl (fun w x => (w.wallReading x).1) s := by
  induction rs generalizing s with
  | nil => rfl
  | cons r rest ih => exact ih _

/-- All that a change of a panel does but to the event flags hangs on no port. -/
theorem State.changePanel_ports (n : Nat) (new : PanelState) (s : State) (q : Ports) :
    ∃ q', State.changePanel n new { s with ports := q } =
      { s.changePanel n new with ports := q' } := by
  unfold State.changePanel
  by_cases h : (panelAt s.panels n).state = new
  · exact ⟨q, by simp only [h, if_true]⟩
  · exact ⟨q.raise .panelChange, by simp only [h, if_false]; rfl⟩

/-- A reading's outcome, and all it does but to the event flags, hang on no port. -/
theorem State.wallReading_ports (r : WallReading) (s : State) (q : Ports) :
    ∃ q', State.wallReading r { s with ports := q } =
      ({ (s.wallReading r).1 with ports := q' }, (s.wallReading r).2) := by
  have hdrop : readingDropped r { s with ports := q } = readingDropped r s := rfl
  unfold State.wallReading
  rw [hdrop]
  split
  · exact ⟨q, rfl⟩
  · obtain ⟨q', h⟩ := State.changePanel_ports r.panel
      (derivedState s.settings (clampDeflection r.deflection))
      (s.modifyPanel r.panel fun x =>
        { x with reading := some (clampDeflection r.deflection, r.time) }) q
    exact ⟨q', congrArg (fun u => (State.insertMark _ _ u, _)) h⟩

/-- What becomes of the readings hangs on no port. -/
theorem State.wallReadings_ports (rs : List WallReading) (s : State) (q : Ports) :
    (State.wallReadings rs { s with ports := q }).2 = (s.wallReadings rs).2 := by
  induction rs generalizing s q with
  | nil => rfl
  | cons r rest ih =>
    obtain ⟨q', h⟩ := State.wallReading_ports r s q
    simp only [State.wallReadings, h, ih]

theorem length_filter_isTaken (os : List ReadingOutcome) :
    (os.filter ReadingOutcome.isTaken).length = os.count .taken + os.count .takenClamped := by
  induction os with
  | nil => rfl
  | cons o rest ih =>
    cases o <;> simp [List.filter_cons, ReadingOutcome.isTaken, ih] <;> omega

theorem length_filter_not_isTaken (os : List ReadingOutcome) :
    (os.filter fun o => !o.isTaken).length =
      os.length - (os.count .taken + os.count .takenClamped) := by
  have h := List.length_eq_length_filter_add (l := os) ReadingOutcome.isTaken
  rw [length_filter_isTaken] at h
  exact Nat.eq_sub_of_add_eq' h.symm

section

variable {ps : List Byte} (hlo : 1 ≤ byteAt ps 0) (hhi : byteAt ps 0 ≤ 8)
  (hlen : ps.length = 1 + 7 * byteAt ps 0) {s : State}

include hlo hhi hlen

theorem decidePostWall_noTime (h : s.clock.running = false) :
    decidePostWall ps s = refuse .noTime s := by
  have hform : ¬ (byteAt ps 0 < 1 ∨ 8 < byteAt ps 0 ∨ ps.length ≠ 1 + 7 * byteAt ps 0) := by omega
  rw [decidePostWall, if_neg hform, h]
  rfl

theorem decidePostWall_eq (h : s.clock.running = true) {os : List ReadingOutcome}
    (hos : os = (s.wallReadings (wallReadingsAt ps 1 (byteAt ps 0))).2) :
    decidePostWall ps s =
      .reply (if ReadingOutcome.takenClamped ∈ os then .okClamped else .ok)
        (enc8 (os.count .taken + os.count .takenClamped) ++
          enc8 (os.length - (os.count .taken + os.count .takenClamped)) ++
          os.flatMap fun o => enc8 o.code)
        ((wallReadingsAt ps 1 (byteAt ps 0)).foldl (fun w x => (w.wallReading x).1) s) := by
  have hform : ¬ (byteAt ps 0 < 1 ∨ 8 < byteAt ps 0 ∨ ps.length ≠ 1 + 7 * byteAt ps 0) := by omega
  rw [decidePostWall, if_neg hform, h, ← State.wallReadings_state, ← length_filter_not_isTaken,
    ← length_filter_isTaken, hos]
  simp

end

theorem postWall_decided (p : PortNo) (form : List Byte) :
    DecidedBy (.postWall p form) decidePostWall := fun _ h _ => by cases h; rfl

/-! ## STALENESS_EXPIRY (R79) -/

theorem exec_stalenessExpiry {n : Nat} {s : State} {due : SiteTime} {rest : List Mark}
    (hp : s.powered = true) (hm : s.marks = ⟨due, .staleness n⟩ :: rest)
    (hd : due ≤ s.clock.time) :
    exec (.stalenessExpiry n) s = .next (State.changePanel n .stale { s with marks := rest }) := by
  show Host.Outcome.next (s.whenPowered fun u => u.expireHead fun k => k == .staleness n) = _
  rw [State.whenPowered_pos hp,
    State.expireHead_due (f := fun k => k == .staleness n) hm hd (beq_self_eq_true _)]
  rfl

/-! ## READ_PANELS (R90) -/

theorem panelRun_eq {count first : Nat} (hlo : 1 ≤ first) (hhi : first ≤ count) (wanted : Nat) :
    panelRun count first wanted = List.range' first (min wanted (count + 1 - first)) := by
  have hk : min count (first + wanted - 1) + 1 - first = min wanted (count + 1 - first) := by omega
  rw [panelRun, numbersFrom, hk, List.range'_eq_map_range]

theorem readPanels_decided (p : PortNo) (form : List Byte) :
    DecidedBy (.readPanels p form) decideReadPanels := fun _ h _ => by cases h; rfl

section

variable {ps : List Byte} (hlen : ps.length = 2) (hlo : 1 ≤ byteAt ps 1) (hhi : byteAt ps 1 ≤ 8)
  {s : State}

include hlen hlo hhi

theorem decideReadPanels_range (h : byteAt ps 0 = 0 ∨ s.settings.panelCount < byteAt ps 0) :
    decideReadPanels ps s = refuse .outOfRange s := by
  have hform : ¬ (ps.length ≠ 2 ∨ byteAt ps 1 < 1 ∨ 8 < byteAt ps 1) := by omega
  rw [decideReadPanels, if_neg hform, if_pos h]

theorem decideReadPanels_eq (hfirst : 1 ≤ byteAt ps 0)
    (huse : byteAt ps 0 ≤ s.settings.panelCount)
    {k : Nat} (hk : k = min (byteAt ps 1) (s.settings.panelCount + 1 - byteAt ps 0)) :
    decideReadPanels ps s = .reply .ok (enc8 k ++
      (List.range' (byteAt ps 0) k).flatMap fun n => encPanel n (panelAt s.panels n)) s := by
  have hform : ¬ (ps.length ≠ 2 ∨ byteAt ps 1 < 1 ∨ 8 < byteAt ps 1) := by omega
  have hrange : ¬ (byteAt ps 0 = 0 ∨ s.settings.panelCount < byteAt ps 0) := by omega
  rw [decideReadPanels, if_neg hform, if_neg hrange, panelRun_eq hfirst huse, ← hk]
  simp only [List.length_range']

end

theorem encPanel_length (n : Nat) (x : Panel) : (encPanel n x).length = 15 := by
  unfold encPanel
  cases x.reading <;> rfl

/-! ## A panel by new levels (R82) -/

/-- The change that the levels in force make of a panel, if they make one. -/
def Panel.changeBy (c : Settings) (n : Nat) (x : Panel) : Option Delivery :=
  x.reading.bind fun r =>
    if x.state = .stale ∨ x.state = derivedState c r.1 then none
    else some (.panelChange n x.state (derivedState c r.1))

/-- The record of a panel judged again. -/
def Panel.rejudged (c : Settings) (x : Panel) : Panel :=
  match x.reading with
  | none => x
  | some r =>
    if x.state = .stale ∨ x.state = derivedState c r.1 then x
    else { x with state := derivedState c r.1, changes := (x.changes + 1) % 65536 }

theorem Panel.rejudged_changed {c : Settings} {x : Panel} {d : Int} {time : Nat}
    (hr : x.reading = some (d, time)) (hx : x.state ≠ .stale) :
    x.rejudged c = if x.state = derivedState c d then x
      else { x with state := derivedState c d, changes := (x.changes + 1) % 65536 } := by
  simp only [Panel.rejudged, hr, hx, false_or]

theorem Panel.rejudged_kept {c : Settings} {x : Panel} (h : x.state = .stale ∨ x.reading = none) :
    x.rejudged c = x := by
  unfold Panel.rejudged
  split
  next => rfl
  next r hr => exact if_pos (.inl (h.resolve_right (by simp [hr])))

/-- Panel changes reported: each is delivered, and a first one raises the event (R80). -/
def State.reportChanges (ds : List Delivery) (s : State) : State :=
  { s with
    deliveries := s.deliveries ++ ds
    ports := if ds = [] then s.ports else s.ports.raise .panelChange }

@[simp] theorem State.reportChanges_panels (ds : List Delivery) (s : State) :
    (s.reportChanges ds).panels = s.panels := rfl

@[simp] theorem State.reportChanges_nil (s : State) : s.reportChanges [] = s := by
  simp [State.reportChanges]

theorem State.reportChanges_append (ds es : List Delivery) (s : State) :
    s.reportChanges (ds ++ es) = (s.reportChanges ds).reportChanges es := by
  by_cases hd : ds = [] <;> by_cases he : es = [] <;>
    simp [State.reportChanges, hd, he, Ports.raise_raise]

/-- One panel judged again: its record, and the change if there is one. -/
theorem State.rejudgePanel_eq {s : State} {i : Nat} {x : Panel} (hx : s.panels[i]? = some x) :
    s.rejudgePanel (i + 1) =
      State.reportChanges (x.changeBy s.settings (i + 1)).toList
        { s with panels := s.panels.set i (x.rejudged s.settings) } := by
  have hat : panelAt s.panels (i + 1) = x := by simp [panelAt, hx]
  have hsame : s.panels.set i x = s.panels := by
    obtain ⟨hi, rfl⟩ := List.getElem?_eq_some_iff.mp hx
    exact List.set_getElem_self hi
  unfold State.rejudgePanel
  split
  next hstale =>
    rw [hat] at hstale
    rw [Panel.rejudged_kept (.inl hstale)]
    cases hr : x.reading <;> simp [Panel.changeBy, hr, hstale, hsame]
  next r hr hne =>
    rw [hat] at hr hne
    have hne : x.state ≠ .stale := hne
    rw [State.changePanel_eq (Nat.le_add_left 1 i) hx, Panel.rejudged_changed hr hne]
    by_cases hd : x.state = derivedState s.settings r.1 <;>
      simp [Panel.changeBy, hr, hne, hd, hsame, State.reportChanges]
  next hr _ =>
    rw [hat] at hr
    rw [Panel.rejudged_kept (.inr hr)]
    simp [Panel.changeBy, hr, hsame]

theorem mapIdx_same {α : Type} (l : List α) : (l.mapIdx fun _ x => x) = l :=
  List.mapIdx_eq_iff.mpr fun i => by simp

/-- A function applied to the elements below an index, and then at that index. -/
theorem mapIdx_below_set {α : Type} (f : α → α) {l : List α} {k : Nat} (hk : k < l.length) :
    (l.mapIdx fun i x => if i < k then f x else x).set k (f l[k]) =
      l.mapIdx fun i x => if i < k + 1 then f x else x := by
  refine List.ext_getElem (by simp) fun i _ hi => ?_
  rcases Nat.lt_trichotomy i k with h | rfl | h
  · simp [h, Nat.ne_of_gt h, Nat.le_of_lt h]
  · simp
  · simp [Nat.ne_of_lt h, Nat.not_lt_of_gt h, Nat.not_le_of_gt h]

/-- The first k panels judged again, in ascending order of number. -/
theorem State.foldl_rejudgePanel (s : State) {k : Nat} (hk : k ≤ s.panels.length) :
    (numbersFrom 1 k).foldl State.rejudgePanel s =
      State.reportChanges
        ((List.range k).filterMap fun i => s.panels[i]?.bind (Panel.changeBy s.settings (i + 1)))
        { s with
          panels := s.panels.mapIdx fun i x => if i < k then x.rejudged s.settings else x } := by
  simp only [numbersFrom, Nat.add_sub_cancel, List.foldl_map, Nat.add_comm 1]
  induction k with
  | zero => simp [mapIdx_same]
  | succ k ih =>
    have hx : s.panels[k]? = some s.panels[k] := List.getElem?_eq_getElem hk
    have hlast : [k].filterMap (fun i => s.panels[i]?.bind (Panel.changeBy s.settings (i + 1))) =
        (s.panels[k].changeBy s.settings (k + 1)).toList := by
      simp only [List.filterMap_cons, List.filterMap_nil, hx, Option.bind_some]
      cases s.panels[k].changeBy s.settings (k + 1) <;> rfl
    rw [List.range_succ, List.foldl_append, ih (Nat.le_of_succ_le hk), List.foldl_cons,
      List.foldl_nil, State.rejudgePanel_eq (x := s.panels[k]) (by simp [hx]),
      List.filterMap_append, hlast, State.reportChanges_append, ← mapIdx_below_set _ hk]
    rfl

/-! ## Panels taken out of use (R82) -/

theorem mem_numbersFrom {a b n : Nat} : n ∈ numbersFrom a b ↔ a ≤ n ∧ n ≤ b := by
  simp only [numbersFrom, List.mem_map, List.mem_range]
  exact ⟨fun ⟨i, hi, he⟩ => by omega, fun h => ⟨n - a, by omega, by omega⟩⟩

/-- The record of a panel taken out of use. -/
def Panel.retired (x : Panel) : Panel := { x with state := .stale, reading := none }

/-- Panels taken out of use, one after another. -/
theorem State.foldl_retirePanel (ns : List Nat) (s : State) :
    ns.foldl State.retirePanel s =
      { s with
        panels := s.panels.mapIdx fun i x => if i + 1 ∈ ns then x.retired else x
        marks := s.marks.filter fun m => ns.all fun n => m.name != .staleness n } := by
  induction ns generalizing s with
  | nil => simp [mapIdx_same]
  | cons n rest ih =>
    have hpanels : ((s.retirePanel n).panels.mapIdx fun i x =>
        if i + 1 ∈ rest then x.retired else x) =
        s.panels.mapIdx fun i x => if i + 1 ∈ n :: rest then x.retired else x := by
      refine List.ext_getElem? fun i => ?_
      rw [List.getElem?_mapIdx, List.getElem?_mapIdx, State.retirePanel, State.removeMark_panels,
        State.modifyPanel_getElem?]
      by_cases hi : i + 1 = n <;> cases s.panels[i]? <;> simp [hi, Panel.retired]
    have hmarks : ((s.retirePanel n).marks.filter fun m =>
        rest.all fun k => m.name != .staleness k) =
        s.marks.filter fun m => (n :: rest).all fun k => m.name != .staleness k := by
      simp only [State.retirePanel, State.removeMark_marks, State.modifyPanel_marks, dropMark,
        List.filter_filter, List.all_cons, Bool.and_comm]
    rw [List.foldl_cons, ih, hpanels, hmarks]
    rfl

/-! ## New settings in force (R82) -/

/-- Whether new settings leave both deflection levels as they were. -/
abbrev Settings.SameLevels (old new : Settings) : Prop :=
  old.alertLevel = new.alertLevel ∧ old.actionLevel = new.actionLevel

/-- What new settings make of the record at an index of the table. -/
def Panel.bySettings (old new : Settings) (i : Nat) (x : Panel) : Panel :=
  if i < new.panelCount then (if old.SameLevels new then x else x.rejudged new)
  else if i < old.panelCount then x.retired
  else x

/-- The changes that new settings make of the panels in use, in ascending order of number. -/
def State.levelChanges (old : Settings) (s : State) : List Delivery :=
  if old.SameLevels s.settings then []
  else (List.range s.settings.panelCount).filterMap fun i =>
    s.panels[i]?.bind (Panel.changeBy s.settings (i + 1))

theorem Panel.bySettings_sameLevels {old new : Settings} (h : old.SameLevels new) :
    Panel.bySettings old new = fun i x =>
      if ¬ i < new.panelCount ∧ i < old.panelCount then x.retired else x := by
  funext i x
  by_cases hi : i < new.panelCount <;> simp [Panel.bySettings, h, hi]

theorem Panel.bySettings_newLevels {old new : Settings} (h : ¬ old.SameLevels new) :
    Panel.bySettings old new = fun i x =>
      if i < new.panelCount then
        (if ¬ i < new.panelCount ∧ i < old.panelCount then x.retired else x).rejudged new
      else if ¬ i < new.panelCount ∧ i < old.panelCount then x.retired else x := by
  funext i x
  by_cases hi : i < new.panelCount <;> simp [Panel.bySettings, h, hi]

/-- All that new settings do to the state. -/
theorem State.applyPanelSettings_eq (old : Settings) {s : State}
    (hcount : s.settings.panelCount ≤ s.panels.length) :
    s.applyPanelSettings old =
      State.reportChanges (s.levelChanges old)
        { s with
          panels := s.panels.mapIdx (Panel.bySettings old s.settings)
          marks := s.marks.filter fun m =>
            (numbersFrom (s.settings.panelCount + 1) old.panelCount).all fun n =>
              m.name != .staleness n } := by
  have hmem : ∀ i, i + 1 ∈ numbersFrom (s.settings.panelCount + 1) old.panelCount ↔
      ¬ i < s.settings.panelCount ∧ i < old.panelCount := fun i => by
    rw [mem_numbersFrom]; omega
  simp only [State.applyPanelSettings, State.foldl_retirePanel, hmem]
  by_cases hsame : old.SameLevels s.settings
  · have hkeep : ¬ (old.alertLevel ≠ s.settings.alertLevel ∨
        old.actionLevel ≠ s.settings.actionLevel) := by
      simpa only [not_or, not_not] using hsame
    rw [if_neg hkeep, State.levelChanges, if_pos hsame, State.reportChanges_nil,
      Panel.bySettings_sameLevels hsame]
  · have hjudge : old.alertLevel ≠ s.settings.alertLevel ∨
        old.actionLevel ≠ s.settings.actionLevel := not_and_or.mp hsame
    rw [if_pos hjudge, State.foldl_rejudgePanel _ (by simpa using hcount), State.levelChanges,
      if_neg hsame, Panel.bySettings_newLevels hsame]
    have hchanges : ((List.range s.settings.panelCount).filterMap fun i =>
        (s.panels.mapIdx fun i x => if ¬ i < s.settings.panelCount ∧ i < old.panelCount then
          x.retired else x)[i]?.bind (Panel.changeBy s.settings (i + 1))) =
        (List.range s.settings.panelCount).filterMap fun i =>
          s.panels[i]?.bind (Panel.changeBy s.settings (i + 1)) :=
      List.filterMap_congr fun i hi => by
        simp [Nat.not_le_of_gt (List.mem_range.mp hi)]
    simp only [hchanges, List.mapIdx_mapIdx, Function.comp_def]

end Sys2Proof.Machine

namespace Sys2Proof.Proofs

open Sys2Proof.Machine

/-- Settles O43: one reading by its checks and what taking it does, the requests by their decisions,
the expiry by the change it makes of its panel. -/
theorem wallReadings : Obligations.WallReadings := by
  refine ⟨⟨?_, ?_⟩, ?_, ?_, encPanel_length⟩
  · intro r s old d new hold hd hnew
    rw [State.wallReading, readingDropped_eq hold]
    by_cases hpanel : r.panel = 0 ∨ s.settings.panelCount < r.panel
    · simp only [if_pos hpanel]
    by_cases hahead : s.clock.time / 1024 + 60 < r.time
    · simp only [if_neg hpanel, if_pos hahead]
    by_cases hlate : (old.reading.any fun x => decide (r.time ≤ x.2)) = true
    · simp only [if_neg hpanel, if_neg hahead, if_pos hlate]
    simp only [if_neg hpanel, if_neg hahead, if_neg hlate, clampDeflection_eq_self,
      State.takeReading_eq (by omega) hold hd hnew]
  · intro p form s r ps os h hlo hhi hlen hos
    refine ⟨by rw [hos, State.wallReadings_length, wallReadingsAt_length], fun hstopped => ?_,
      fun hruns => ?_⟩
    · exact h.reply (postWall_decided p form) (decidePostWall_noTime hlo hhi hlen hstopped)
    · have htaken : (State.wallReadings (wallReadingsAt ps 1 (byteAt ps 0))
          (s.taken r.port r.code r.form)).2 = os := (State.wallReadings_ports _ s _).trans hos.symm
      exact h.reply (postWall_decided p form)
        (decidePostWall_eq (s := s.taken r.port r.code r.form) hlo hhi hlen hruns htaken.symm)
  · intro n s due rest old hp hm hd hn hold
    exact (exec_stalenessExpiry hp hm hd).trans
      (congrArg Host.Outcome.next (State.changePanel_eq (s := { s with marks := rest }) hn hold _))
  · intro p form s r ps k h hlen hlo hhi
    exact ⟨fun hrange => h.reply (readPanels_decided p form)
        (decideReadPanels_range hlen hlo hhi hrange),
      fun hfirst huse hk => h.reply (readPanels_decided p form)
        (decideReadPanels_eq (s := s.taken r.port r.code r.form) hlen hlo hhi hfirst huse hk)⟩

/-- Settles O44: the panels taken out of use one after another, then the panels in use judged
again. -/
theorem settingsReachPanels : Obligations.SettingsReachPanels := by
  intro old s t hlen hold hcount ht
  rw [State.applyPanelSettings_eq old (hcount.trans_eq hlen.symm)] at ht
  subst ht
  refine ⟨fun n x hn hx => ?_, ?_, fun more hmore => ?_, rfl⟩
  · have hget : (s.panels.mapIdx (Panel.bySettings old s.settings))[n]? =
        some (x.bySettings old s.settings n) := by
      rw [List.getElem?_mapIdx, hx]
      rfl
    simp only [State.reportChanges_panels, hget, Option.some.injEq, Panel.bySettings]
    refine ⟨fun hout hwas => ?_, fun hin d time hr hstale hlevels => ?_, fun hin hout => ?_⟩
    · rw [if_neg (Nat.not_lt.mpr hout), if_pos hwas, Panel.retired]
    · rw [if_pos hin, if_neg (not_and_or.mpr hlevels), Panel.rejudged_changed hr hstale]
    · by_cases huse : n < s.settings.panelCount
      · rw [if_pos huse]
        split
        next => rfl
        next hlevels =>
          refine Panel.rejudged_kept ?_
          obtain h | h | h := hin huse
          · exact .inl h
          · exact .inr h
          · exact absurd h hlevels
      · rw [if_neg huse, if_neg (Nat.not_lt.mpr (hout (Nat.not_lt.mp huse)))]
  · refine List.filter_congr fun m _ => Bool.eq_iff_iff.mpr ?_
    simp only [List.all_eq_true, bne_iff_ne, mem_numbersFrom]
    cases m.name with
    | staleness n =>
      simp only [MarkName.staleness.injEq, Bool.or_eq_true, decide_eq_true_eq, ne_eq]
      exact ⟨fun h => by have := h n; omega, fun h k hk e => by omega⟩
    | _ => simp
  · have : more = s.levelChanges old := hmore
    subst this
    exact ⟨rfl, rfl⟩

end Sys2Proof.Proofs
end

section
/-! SUPPORT. The stops of the winch engine: the change of every entry to STOPPED, the expiry that
counts a jam, and what a trip and a drum encoder fault make of each winch state. -/

namespace Sys2Proof.Machine

/-! ## The entry to STOPPED (R99) -/

/-- The change of every entry to STOPPED: the output off, the jam timing ended, the flow given back. -/
theorem State.stopWinch_eq (r : StopReason) (s : State) : s.stopWinch r =
    { s with
      outputs := if s.supply.latched = true then s.outputs else
        { s.outputs with winch := { s.outputs.winch with set := 0, driven := 0 } }
      marks := if s.winch.jamTiming = true then s.marks.filter (fun m => m.name != .jam)
        else s.marks
      deliveries := s.deliveries ++ [.release .winch]
      winch := { s.winch with state := .stopped, reason := some r, jamTiming := false }
      ports := s.ports.raise .winchStopped } := by
  simp only [State.stopWinch, State.writeDuty_winch_zero, State.stopJamTiming_eq,
    State.releaseFlow, State.send, State.raise]

/-! ## What stops the winch (R100, R101, R102) -/

/-- Only a winch in RUN or SLOW takes the expiry of the JAM mark as a jam (R100). -/
theorem State.winchJam_running {s : State} (h : s.winch.state = .run ∨ s.winch.state = .slow) :
    s.winchJam = State.stopWinch .jam
      { s with winch := { s.winch with jamCount := s.winch.jamCount + 1 } } := if_pos h

/-- A trip stops the winch unless it is IDLE, or STOPPED with its reason given already (R101). -/
theorem State.winchTrip_eq (s : State) : s.winchTrip =
    if s.winch.state = .idle ∨ s.winch.state = .stopped then s else s.stopWinch .trip := by
  cases h : s.winch.state <;> simp [State.winchTrip, h]

/-- A drum encoder fault stops the winch in the states in which a trip does (R102). -/
theorem State.winchEncoderFault_eq (s : State) : s.winchEncoderFault =
    if s.winch.state = .idle ∨ s.winch.state = .stopped then s else s.stopWinch .encoder := by
  cases h : s.winch.state <;> simp [State.winchEncoderFault, h]

theorem exec_jamExpiry_running {s : State} {due : SiteTime} {rest : List Mark}
    (hp : s.powered = true) (hm : s.marks = ⟨due, .jam⟩ :: rest) (hd : due ≤ s.clock.time)
    (h : s.winch.state = .run ∨ s.winch.state = .slow) :
    exec .jamExpiry s = .next (State.stopWinch .jam
      { s with marks := rest, winch := { s.winch with jamCount := s.winch.jamCount + 1 } }) :=
  (exec_command_due hp hm hd).trans
    (congrArg Host.Outcome.next (State.winchJam_running (s := { s with marks := rest }) h))

end Sys2Proof.Machine

namespace Sys2Proof.Proofs

open Sys2Proof.Machine

/-- Settles O17: the entry to STOPPED by what it writes; each of its three causes by the winch state
that it finds. -/
theorem winchStops : Obligations.WinchStops := by
  refine ⟨State.stopWinch_eq, fun s due rest hp hm hd h => exec_jamExpiry_running hp hm hd h,
    fun s before after hp hd hs hb => ?_, fun s pair hp hd h => ?_⟩
  · exact (exec_tripNotice hp hd hs hb).trans (congrArg Host.Outcome.next (State.winchTrip_eq _))
  · rw [exec_countStep hp hd, State.countStep_drum_fault h, State.winchEncoderFault_eq]
    rfl

end Sys2Proof.Proofs
end

section
/-! SUPPORT. The grout engine's breaks and pauses, its strokes, and the batches that come and go. -/

namespace Sys2Proof.Machine

/-! ## Breaks and pauses (R115, R116) -/

theorem GroutState.inBreak_iff {g : GroutState} :
    g.inBreak = true ↔ g = .waitBatch ∨ g = .waitFlow ∨ g = .paused := by
  cases g <;> simp [GroutState.inBreak]

theorem State.not_hasMark_iff {n : MarkName} {s : State} :
    ¬ s.hasMark n = true ↔ ∀ m ∈ s.marks, m.name ≠ n := by
  simp [State.hasMark]

theorem dropMark_of_absent {n : MarkName} {ms : List Mark} (h : ∀ m ∈ ms, m.name ≠ n) :
    dropMark n ms = ms :=
  List.filter_eq_self.mpr fun m hm => bne_iff_ne.mpr (h m hm)

/-- The removal of one name does not change whether a list is without another. -/
theorem absent_dropMark_iff {n k : MarkName} (hne : n ≠ k) {ms : List Mark} :
    (∀ m ∈ dropMark k ms, m.name ≠ n) ↔ ∀ m ∈ ms, m.name ≠ n := by
  refine ⟨fun h m hm hn => h m ?_ hn, fun h m hm => h m (List.mem_of_mem_filter hm)⟩
  exact List.mem_filter.mpr ⟨hm, bne_iff_ne.mpr (hn.trans_ne hne)⟩

/-- A break is timed once a stroke has been counted, by a COLD_JOINT mark that is not held yet
(R115). -/
theorem State.timeBreak_eq (s : State) : s.timeBreak =
    if (s.grout.state = .waitBatch ∨ s.grout.state = .waitFlow ∨ s.grout.state = .paused) ∧
        0 < s.grout.strokes ∧ ∀ m ∈ s.marks, m.name ≠ .coldJoint then
      { s with
        marks := placeMark
          ⟨min (s.clock.time + s.settings.coldJointLimit * 1024) Config.maxTime, .coldJoint⟩
          s.marks }
    else s := by
  simp only [State.timeBreak, GroutState.inBreak_iff, State.not_hasMark_iff]
  split
  next h =>
    obtain ⟨-, -, habsent⟩ := h
    rw [State.insertMark, dropMark_of_absent habsent]
    rfl
  next => rfl

/-- The change of every entry to PAUSED (R116). -/
theorem State.pauseGrout_eq (r : PauseReason) (s : State) : s.pauseGrout r =
    { s with
      outputs := if s.supply.latched = true then s.outputs else
        { s.outputs with pump := { s.outputs.pump with set := 0, driven := 0 } }
      marks :=
        let kept := s.marks.filter fun m => m.name != .refusal
        if 0 < s.grout.strokes ∧ ∀ m ∈ s.marks, m.name ≠ .coldJoint then
          placeMark ⟨min (s.clock.time + s.settings.coldJointLimit * 1024) Config.maxTime,
            .coldJoint⟩ kept
        else kept
      deliveries := s.deliveries ++ [.release .grout]
      grout := { s.grout with state := .paused, pause := some r }
      ports := s.ports.raise .groutPaused } := by
  have habsent := absent_dropMark_iff (n := .coldJoint) (k := .refusal) (by decide) (ms := s.marks)
  simp only [State.pauseGrout, State.writeDuty_pump_zero, State.removeMark, State.releaseFlow,
    State.send, State.timeBreak_eq, habsent, or_true, true_and, State.raise]
  split <;> rfl

theorem State.groutColdJoint_eq (s : State) : s.groutColdJoint =
    if s.grout.state = .waitBatch ∨ s.grout.state = .waitFlow ∨ s.grout.state = .paused then
      s.endGrout .incomplete
    else s := by
  simp only [State.groutColdJoint, GroutState.inBreak_iff]

/-! ## A volume charged to the queue (R120) -/

@[simp] theorem chargeQueue_nil (v : Nat) : chargeQueue v [] = ⟨[], [], [], v⟩ := by
  rw [chargeQueue]

@[simp] theorem chargeQueue_zero (queue : List Batch) :
    chargeQueue 0 queue = ⟨queue, [], [], 0⟩ := by
  cases queue with
  | nil => rw [chargeQueue]
  | cons b rest => rw [chargeQueue, if_pos rfl]

/-- A head that has no more than the volume gives all of it and leaves. -/
theorem chargeQueue_used {v : Nat} {b : Batch} (hv : v ≠ 0) (hb : b.remaining ≤ v)
    (rest : List Batch) : chargeQueue v (b :: rest) =
      { chargeQueue (v - b.remaining) rest with
        gave := b.id :: (chargeQueue (v - b.remaining) rest).gave
        used := b.id :: (chargeQueue (v - b.remaining) rest).used } := by
  rw [chargeQueue, if_neg hv, if_pos hb]

/-- A head that has more than the volume gives all of the volume and stays. -/
theorem chargeQueue_partly {v : Nat} {b : Batch} (hv : v ≠ 0) (hb : v < b.remaining)
    (rest : List Batch) : chargeQueue v (b :: rest) =
      ⟨{ b with remaining := b.remaining - v } :: rest, [b.id], [], 0⟩ := by
  rw [chargeQueue, if_neg hv, if_neg (Nat.not_le.mpr hb)]

/-- What a charge keeps of the queue and of the volume, as the volume goes down the queue (R120). -/
theorem chargeQueue_spec {v : Nat} {queue : List Batch} {c : Charge}
    (hc : c = chargeQueue v queue) :
    (queue.map Batch.remaining).sum + c.left = (c.queue.map Batch.remaining).sum + v ∧
      (0 < c.left → c.queue = []) ∧
      queue.map Batch.id = c.used ++ c.queue.map Batch.id ∧
      (c.gave = c.used ∨ ∃ b rest, c.queue = b :: rest ∧ c.gave = c.used ++ [b.id]) ∧
      c.queue.drop 1 = queue.drop (c.used.length + 1) := by
  induction queue generalizing v c with
  | nil => simp [hc]
  | cons b rest ih =>
    by_cases hv : v = 0
    · simp [hc, hv]
    · by_cases hb : b.remaining ≤ v
      · obtain ⟨hsum, hleft, hids, hgave, hdrop⟩ := ih (v := v - b.remaining) rfl
        rw [hc, chargeQueue_used hv hb]
        refine ⟨?_, hleft, congrArg (b.id :: ·) hids, ?_, hdrop⟩
        · simp only [List.map_cons, List.sum_cons]
          omega
        · rcases hgave with hall | ⟨x, more, hqueue, hlast⟩
          · exact .inl (congrArg (b.id :: ·) hall)
          · exact .inr ⟨x, more, hqueue, congrArg (b.id :: ·) hlast⟩
      · have hlt : v < b.remaining := Nat.not_le.mp hb
        rw [hc, chargeQueue_partly hv hlt]
        refine ⟨?_, fun h => absurd h (Nat.lt_irrefl 0), rfl, .inr ⟨_, _, rfl, rfl⟩, rfl⟩
        simp only [List.map_cons, List.sum_cons]
        omega

/-! ## A stroke (R54, R110, R120, R121) -/

/-- Batches that leave the queue one after another: their marks removed, BATCH_GONE raised once for
all (R110, R189). -/
theorem State.foldl_batchGone (ids : List Nat) (s : State) :
    ids.foldl (fun t id => t.batchGone id) s =
      { s with
        marks := s.marks.filter fun m => ids.all fun id => m.name != .expiry id
        ports := if ids = [] then s.ports else s.ports.raise .batchGone } := by
  induction ids generalizing s with
  | nil => simp
  | cons id rest ih =>
    rw [List.foldl_cons, ih]
    have hports : (if rest = [] then s.ports.raise .batchGone
        else (s.ports.raise .batchGone).raise .batchGone) = s.ports.raise .batchGone := by
      rw [Ports.raise_raise, ite_self]
    simp only [State.batchGone, State.raise, State.removeMark, dropMark, List.filter_filter,
      List.all_cons, hports, Bool.and_comm, reduceCtorEq, if_false]

/-- The change of a counted stroke (R120). -/
theorem State.countStroke_eq {s : State} {c : Charge}
    (hc : c = chargeQueue s.settings.strokeVolume s.batches) : s.countStroke =
    { s with
      batches := c.queue
      marks := s.marks.filter fun m => c.used.all fun id => m.name != .expiry id
      grout := { s.grout with
        strokes := s.grout.strokes + 1
        injected := s.grout.injected + s.settings.strokeVolume
        batchIds := (c.gave.foldl noteBatch (s.grout.batchIds, s.grout.extra)).1
        extra := (c.gave.foldl noteBatch (s.grout.batchIds, s.grout.extra)).2
        unattributed := s.grout.unattributed + c.left }
      ports := if c.used = [] then s.ports else s.ports.raise .batchGone } := by
  rw [State.countStroke, ← hc]
  exact State.foldl_batchGone _ _

/-- WAIT_FLOW with an empty queue: back to WAIT_BATCH, its claim given up (R121, R122). -/
theorem State.groutLoseQueue_eq (s : State) : s.groutLoseQueue =
    State.timeBreak
      { s with
        grout := { s.grout with state := .waitBatch }
        deliveries := s.deliveries ++ [.release .grout] } := rfl

theorem State.afterStroke_eq (s : State) : s.afterStroke =
    if s.grout.limit.getD 0 ≤ s.grout.injected then
      s.endGrout (if s.grout.mode = some .primary then .complete else .incomplete)
    else if s.grout.state = .pumping ∧ s.batches = [] then s.pauseGrout .batch
    else if s.grout.state = .waitFlow ∧ s.batches = [] then s.groutLoseQueue
    else s.timeBreak := by
  simp only [State.afterStroke, List.isEmpty_iff]

/-- STROKE hands the oldest stroke in flight to the engine. -/
theorem exec_stroke {s : State} {before after : List Delivery} {time : SiteTime}
    {interval : Option Nat} (hp : s.powered = true) (hd : s.noneDue = true)
    (hs : s.deliveries = before ++ .stroke time interval :: after)
    (hb : ∀ d ∈ before, ∀ t i, d ≠ .stroke t i) :
    exec .stroke s = .next (State.groutStroke { s with deliveries := before ++ after }) := by
  have hnone : ∀ d ∈ before, Delivery.strokeOf d = none := fun d hmem => by
    unfold Delivery.strokeOf
    split
    next t i => exact absurd rfl (hb _ hmem t i)
    next => rfl
  refine (exec_of_noneDue hp hd rfl).trans (congrArg Host.Outcome.next ?_)
  exact State.deliverKind_split hs hnone rfl

/-! ## POST_BATCH (R108, R109) -/

theorem byteAt_lt (bs : List Byte) (i : Nat) : byteAt bs i < 256 := (bs.getD i 0).isLt

theorem u16At_lt (bs : List Byte) (i : Nat) : u16At bs i < 65536 := by
  have hlow := byteAt_lt bs i
  have hhigh := byteAt_lt bs (i + 1)
  unfold u16At
  omega

theorem postBatch_decided (p : PortNo) (form : List Byte) :
    DecidedBy (.postBatch p form) decidePostBatch := fun _ h _ => by cases h; rfl

/-- A batch with its id, volume and life in range has no field out of range (R108). -/
theorem Batch.outOfRange_eq_none {b : Batch} : b.outOfRange = none ↔
    (1 ≤ b.id ∧ b.id ≤ 65535) ∧ (1 ≤ b.volume ∧ b.volume ≤ 20000) ∧ 30 ≤ b.life ∧ b.life ≤ 240 := by
  unfold Batch.outOfRange
  split_ifs <;> simp only [false_iff, true_iff] <;> omega

theorem mixInOrder_iff {b : Batch} {queue : List Batch} :
    mixInOrder b queue = true ↔ ∀ x, queue.getLast? = some x → x.mixTime ≤ b.mixTime := by
  cases h : queue.getLast? <;> simp [mixInOrder, h]

theorem decidePostBatch_accepted {ps : List Byte} {s : State} {b : Batch} (hl : ps.length = 11)
    (hb : batchOf ps = b) (hr : b.outOfRange = none) (hc : s.clock.running = true)
    (hn : s.batches.length < 4) (hid : ∀ x ∈ s.batches, x.id ≠ b.id) (hlow : 380 ≤ b.ratio)
    (hhigh : b.ratio ≤ 550) (hmix : b.mixTime ≤ s.nowSeconds + 60)
    (hexp : s.nowSeconds < b.expiry) (horder : mixInOrder b s.batches = true) :
    decidePostBatch ps s =
      .reply .ok (enc32 b.expiry ++ enc8 (s.batches.length + 1)) (s.postBatch b) := by
  have hdup : s.batches.any (fun x => x.id == b.id) = false := by simpa using hid
  simp only [decidePostBatch, hb, hl, hr, hc, hdup, horder, ne_eq, not_true_eq_false, Bool.not_true,
    Bool.false_eq_true, if_false, if_neg (Nat.not_le.mpr hn), if_neg (Nat.not_lt.mpr hmix),
    if_neg (Nat.not_le.mpr hexp), Nat.not_lt.mpr hlow, Nat.not_lt.mpr hhigh, or_self]

/-- The grout engine in WAIT_BATCH claims flow at a batch's arrival (R119). -/
theorem State.groutArrival_eq (s : State) : s.groutArrival =
    { s with
      grout := { s.grout with
        state := if s.grout.state = .waitBatch then .waitFlow else s.grout.state }
      deliveries := if s.grout.state = .waitBatch
        then s.deliveries ++ [.claim .grout s.settings.groutDemand] else s.deliveries } := by
  unfold State.groutArrival
  split <;> rfl

/-- The change of an accepted POST_BATCH (R109). -/
theorem State.postBatch_eq (b : Batch) (s : State) : s.postBatch b =
    { s with
      batches := s.batches ++ [b]
      marks := placeMark ⟨min (b.expiry * 1024) Config.maxTime, .expiry b.id⟩
        (s.marks.filter fun m => m.name != .expiry b.id)
      grout := { s.grout with
        state := if s.grout.state = .waitBatch then .waitFlow else s.grout.state }
      deliveries := if s.grout.state = .waitBatch
        then s.deliveries ++ [.claim .grout s.settings.groutDemand] else s.deliveries } :=
  State.groutArrival_eq _

/-! ## A batch leaves (R107, R110, R111, R122) -/

/-- What the removal of a batch makes of the engine, by the queue that it leaves (R122). -/
theorem State.groutRemoval_eq (s : State) : s.groutRemoval =
    if s.batches = [] ∧ s.grout.state = .pumping then s.pauseGrout .batch
    else if s.batches = [] ∧ s.grout.state = .waitFlow then s.groutLoseQueue
    else s := by
  simp only [State.groutRemoval, List.isEmpty_iff, and_comm]

theorem discardBatch_decided (p : PortNo) (form : List Byte) :
    DecidedBy (.discardBatch p form) decideDiscardBatch := fun _ h _ => by cases h; rfl

theorem decideDiscardBatch_found {ps : List Byte} {s : State} {x : Batch} (hl : ps.length = 2)
    (hx : s.batches.find? (fun b => b.id == u16At ps 0) = some x) :
    decideDiscardBatch ps s = .reply .ok (enc16 x.remaining) (s.removeBatch (u16At ps 0)) := by
  have hid : x.id = u16At ps 0 := by simpa using List.find?_some hx
  simp only [decideDiscardBatch, hl, hx, hid, ne_eq, not_true_eq_false, if_false]

theorem decideDiscardBatch_unknown {ps : List Byte} {s : State} (hl : ps.length = 2)
    (hx : s.batches.find? (fun b => b.id == u16At ps 0) = none) :
    decideDiscardBatch ps s = refuse .noRecord s := by
  simp only [decideDiscardBatch, hl, hx, ne_eq, not_true_eq_false, if_false]

end Sys2Proof.Machine

namespace Sys2Proof.Proofs

open Sys2Proof.Machine

/-- Settles O19: the entry to PAUSED and the break by what they write, the trip notice and the two
expiries by the engine state that each finds. -/
theorem groutPausesAndExpiries : Obligations.GroutPausesAndExpiries := by
  refine ⟨⟨State.pauseGrout_eq, fun s before after hp hd hs hb => exec_tripNotice hp hd hs hb⟩,
    State.timeBreak_eq, fun s due rest hp hm hd => ?_,
    fun s due rest hp hm hd => exec_command_due hp hm hd⟩
  exact (exec_command_due hp hm hd).trans (congrArg Host.Outcome.next (State.groutColdJoint_eq _))

/-- Settles O22: the charge by induction on the queue; a stroke by its count and by the checks that
follow it, in order. -/
theorem strokesAreCounted : Obligations.StrokesAreCounted := by
  refine ⟨fun _ _ => chargeQueue_spec rfl, fun s before after time interval hp hd hs hb => ?_⟩
  have hexec := exec_stroke hp hd hs hb
  refine ⟨fun hidle => ?_, fun hbusy c ids u hc hids hu => ?_⟩
  · exact hexec.trans (congrArg Host.Outcome.next (if_pos hidle))
  · have hcount : State.countStroke { s with deliveries := before ++ after } = u :=
      (State.countStroke_eq (s := { s with deliveries := before ++ after }) hc).trans
        (by rw [hu, hids])
    rw [hexec, State.groutStroke, if_neg hbusy, hcount, State.afterStroke_eq,
      State.groutLoseQueue_eq, hu]

/-- Settles O23: POST_BATCH and DISCARD_BATCH by their decisions, the removal of a batch by the
queue that it leaves, and the expiry as that removal. -/
theorem batchesComeAndGo : Obligations.BatchesComeAndGo := by
  refine ⟨?_, ?_, ?_, fun id s due rest hp hm hd => exec_command_due hp hm hd⟩
  · intro p form s r ps b h hl hb hid hvol hvol' hlife hlife' hc hn hdup hlow hhigh hmix hexp horder
    have hbatch : batchOf ps = b := by rw [hb, batchOf, Nat.mul_comm]
    have hid' : b.id ≤ 65535 := by
      rw [hb]
      exact Nat.le_of_lt_succ (u16At_lt ps 0)
    have hrange := Batch.outOfRange_eq_none.mpr ⟨⟨hid, hid'⟩, ⟨hvol, hvol'⟩, hlife, hlife'⟩
    refine h.reply (postBatch_decided p form) ((decidePostBatch_accepted
      (s := s.taken r.port r.code r.form) hl hbatch hrange hc hn hdup hlow hhigh hmix hexp
      (mixInOrder_iff.mpr horder)).trans ?_)
    rw [State.postBatch_eq]
    rfl
  · intro id s u hu
    have htaken : s.takeBatch id = u := hu.symm
    rw [State.removeBatch, htaken, State.groutRemoval_eq, State.groutLoseQueue_eq, hu]
  · intro p form s r ps h hl
    split
    next x hx => exact h.reply (discardBatch_decided p form) (decideDiscardBatch_found hl hx)
    next hx => exact h.reply (discardBatch_decided p form) (decideDiscardBatch_unknown hl hx)

end Sys2Proof.Proofs
end

section
/-! SUPPORT. START_TEST accepted: the panels next to one, and every check passed in turn. -/

namespace Sys2Proof.Machine

/-! ## The panels next to one (R74, R87, R88) -/

theorem mem_neighbourhood {count p q : Nat} : q ∈ neighbourhood count p ↔
    (q + 1 = p ∨ q = p ∨ q = p + 1) ∧ 1 ≤ q ∧ q ≤ count := by
  simp only [neighbourhood, List.mem_filter, List.mem_cons, List.not_mem_nil, or_false,
    Bool.and_eq_true, decide_eq_true_eq]
  omega

theorem mem_neighbours {count p q : Nat} : q ∈ neighbours count p ↔
    (q + 1 = p ∨ q = p + 1) ∧ 1 ≤ q ∧ q ≤ count := by
  simp only [neighbours, List.mem_filter, mem_neighbourhood, bne_iff_ne]
  omega

/-- A test is held by no panel when each of its neighbourhood is CLEAR (R87). -/
theorem State.panelHeld_eq_none {s : State} {p : Nat} : s.panelHeld p = none ↔
    ∀ q, (q + 1 = p ∨ q = p ∨ q = p + 1) → 1 ≤ q → q ≤ s.settings.panelCount →
      (panelAt s.panels q).state = .clear := by
  simp [State.panelHeld, mem_neighbourhood]

/-- A lock-off load leaves the wall in balance when no neighbour differs by more than the limit
(R88). -/
theorem State.imbalanced_eq_none {s : State} {p lock : Nat} : s.imbalanced p lock = none ↔
    ∀ q, (q + 1 = p ∨ q = p + 1) → 1 ≤ q → q ≤ s.settings.panelCount →
      ((panelAt s.panels p).lockedSum + lock - (panelAt s.panels q).lockedSum : Int).natAbs ≤
        s.settings.imbalanceLimit := by
  have hlimit : s.imbalanced p lock = none ↔ ∀ q ∈ neighbours s.settings.panelCount p,
      s.imbalance p lock q ≤ s.settings.imbalanceLimit := by simp [State.imbalanced]
  simp only [hlimit, mem_neighbours, State.imbalance, and_imp]

/-! ## START_TEST accepted (R134, R135) -/

theorem decideTestPermit_accepted {a : Anchor} {steps : List Step} {s : State}
    (hwork : s.register.panelHolds a.pos.panel .grouting = false)
    (hheld : s.panelHeld a.pos.panel = none)
    (hbalance : s.imbalanced a.pos.panel a.design.lockLoad = none)
    (htrip : s.supply.latched = false) :
    decideTestPermit a steps s = .reply .ok
      (enc8 steps.length ++ (stepTargets a.design steps).flatMap enc16 ++ enc16 a.design.lockLoad)
      (s.startTest a steps) := by
  simp [decideTestPermit, hwork, hheld, hbalance, htrip]

theorem decideTestProfile_accepted {a : Anchor} {steps : List Step} {s : State}
    (hprofile : s.settings.profile a.design.profile = some steps)
    (hjack : peakPressure s.settings a.design steps ≤ s.settings.jackMax) :
    decideTestProfile a s = decideTestPermit a steps s := by
  simp [decideTestProfile, hprofile, Nat.not_lt.mpr hjack]

/-- The checks on the request, the anchor, the engine, the journal, the clock and the cure leave
those on the profile and the wall. -/
theorem decideStartTest_ready {ps : List Byte} {s : State} {a : Anchor} (hl : ps.length = 3)
    (hv : (positionAt ps 0).valid = true) (ha : s.register.find (positionAt ps 0) = some a)
    (hstate : a.state = .grouted ∨ a.state = .failed) (hcount : a.testPart.count < 4)
    (hidle : s.stress.state = .idle) (hbusy : s.journal.state ≠ .appending)
    (hfault : s.journal.state ≠ .fault) (hroom : 727 ≤ s.journal.room)
    (hclock : s.clock.running = true)
    (hcured : a.hoursToCure s.settings.curePeriod s.nowSeconds = none) :
    decideStartTest ps s = decideTestProfile a s := by
  have hallowed : ¬ (a.state ≠ .grouted ∧ a.state ≠ .failed) := by tauto
  have hlimit : ¬ 4 ≤ a.testCount := Nat.not_le.mpr hcount
  have hfull : ¬ s.journal.room < Config.certificateRoom := Nat.not_lt.mpr hroom
  simp [decideStartTest, hl, hv, ha, hallowed, hlimit, hidle, hbusy, hfault, hfull, hclock, hcured]

end Sys2Proof.Machine

namespace Sys2Proof.Proofs

open Sys2Proof.Machine

/-- Settles O31: every check of START_TEST passes, the last on the wall and the supply; the change
and the reply are then those of an accepted test. -/
theorem startTestTakesAnchor : Obligations.StartTestTakesAnchor := by
  rintro p form s r ps a steps groutEnd targets lock h hl hv ha hstate hcount hidle hbusy hfault
    hroom hclock hend hcure hprofile hjack hwork hclear rfl hbalance htrip rfl
  have hcured : a.hoursToCure s.settings.curePeriod s.nowSeconds = none := by
    rw [Anchor.hoursToCure_ended hend]
    exact if_pos hcure
  have hready := decideStartTest_ready (s := s.taken r.port r.code r.form) hl hv ha hstate hcount
    hidle hbusy hfault hroom hclock hcured
  have hpermit := decideTestPermit_accepted (steps := steps) (s := s.taken r.port r.code r.form)
    (Register.panelHolds_eq_false.mpr hwork) (State.panelHeld_eq_none.mpr hclear)
    (State.imbalanced_eq_none.mpr hbalance) htrip
  exact h.reply (startTest_decided p form)
    ((hready.trans (decideTestProfile_accepted hprofile hjack)).trans hpermit)

end Sys2Proof.Proofs
end

section
/-! SUPPORT. The schedule of a test: ramps, make-ups, the marks and the end of a hold, suspension
and resume. -/

namespace Sys2Proof.Machine

/-! ## The steps of the profile copy (R129, R135) -/

@[simp] theorem Stress.stepAt_succ (e : Stress) (i : Nat) : e.stepAt (i + 1) = e.steps[i]? := rfl

@[simp] theorem Stress.targetAt_succ (e : Stress) (i : Nat) :
    e.targetAt (i + 1) = e.targets.getD i 0 := rfl

theorem Stress.present_eq {e : Stress} {i : Nat} {st : Step} (hi : e.step = some (i + 1))
    (hst : e.steps[i]? = some st) : e.present = some st := by
  simp [Stress.present, hi, hst]

/-! ## Ramps (R138) -/

/-- A duty is written only when it differs from the set duty, and no trip holds the outputs. -/
theorem State.drive_eq {v : Valve} (hv : valveOwner v = .stress) (d : Nat) (s : State) :
    s.drive v d = if (s.outputs.get v).set = d ∨ s.supply.latched = true then s
      else { s with outputs := s.outputs.write v (min d 1000) } := by
  rw [State.drive, State.writeDuty_jack hv]
  by_cases hset : (s.outputs.get v).set = d <;> cases hl : s.supply.latched <;> simp [hset]

theorem rampMove_reached {c : Settings} {dir : RampDir} {t : Int} {load : Nat}
    (h : (dir = .up ∧ t ≤ load) ∨ (dir = .down ∧ load ≤ t) ∨ (dir = .undecided ∧ load = t)) :
    rampMove c dir t load = .reached := by
  rcases h with ⟨rfl, h⟩ | ⟨rfl, h⟩ | ⟨rfl, h⟩
  · exact if_pos h
  · exact if_pos h
  · simp [rampMove, h]

theorem rampMove_up {c : Settings} {dir : RampDir} {t : Int} {load : Nat}
    (hdir : dir = .up ∨ dir = .undecided) (h : load < t) : rampMove c dir t load =
      .toward .up .jackAdvance
        (if t - c.approachBand ≤ load then c.approachDuty else c.rampDuty) := by
  have hup : rampUp c t load = _ := if_neg (not_le.mpr h)
  rcases hdir with rfl | rfl
  · exact hup
  · exact (if_pos h).trans hup

theorem rampMove_down {c : Settings} {dir : RampDir} {t : Int} {load : Nat}
    (hdir : dir = .down ∨ dir = .undecided) (h : t < load) : rampMove c dir t load =
      .toward .down .jackRelease
        (if load ≤ t + c.approachBand then c.approachDuty else c.rampDuty) := by
  have hdown : rampDown c t load = _ := if_neg (not_le.mpr h)
  rcases hdir with rfl | rfl
  · exact hdown
  · exact (if_neg (not_lt.mpr h.le)).trans ((if_pos h).trans hdown)

/-- A step's target reached: the jack stopped, and the hold begun with its marks. -/
theorem State.reachTarget_eq {s : State} {i : Nat} {st : Step}
    (hi : s.stress.step = some (i + 1)) (hst : s.stress.steps[i]? = some st) : s.reachTarget =
      State.insertHoldMarks (i + 1) st s.clock.time
        { s with
          outputs := if s.supply.latched = true then s.outputs else
            { s.outputs with
              jackAdvance := { s.outputs.jackAdvance with set := 0, driven := 0 }
              jackRelease := { s.outputs.jackRelease with set := 0, driven := 0 } }
          stress := { s.stress with
            state := .stepHold, holdStart := some s.clock.time, extended := false
            makingUp := false } } := by
  simp only [State.reachTarget, State.stopJack_eq, State.now, Stress.present, hi,
    Option.getD_some, Stress.stepAt_succ, hst]

/-! ## Make-up (R139, R146) -/

/-- A make-up ended: its duty taken back when one was running. -/
theorem State.endMakeUp_eq (s : State) : s.endMakeUp =
    { s with
      outputs := if s.stress.makingUp = true ∧ s.supply.latched = false
        then s.outputs.write .jackAdvance 0 else s.outputs
      stress := { s.stress with makingUp := false } } := by
  unfold State.endMakeUp
  split
  next h =>
    rw [State.writeDuty_jack rfl]
    cases hl : s.supply.latched <;> simp [h]
  next h =>
    have hoff : s.stress.makingUp = false := by simpa using h
    have hstress : { s.stress with makingUp := false } = s.stress := by rw [← hoff]
    simp [hstress, hoff]

/-- The make-up rule: a running make-up ends at the level held, a new one begins below the band. -/
theorem State.makeUp_eq (level load : Nat) (s : State) : s.makeUp level load =
    if s.stress.makingUp = true then
      if level ≤ load then
        { s with
          stress := { s.stress with makingUp := false }
          outputs := if s.supply.latched = true then s.outputs
            else s.outputs.write .jackAdvance 0 }
      else s
    else if (load : Int) < level - s.settings.makeUpBand then
      { s with
        stress := { s.stress with
          makingUp := true, makeUps := satSucc 65535 s.stress.makeUps }
        outputs := if s.supply.latched = true then s.outputs
          else s.outputs.write .jackAdvance (min s.settings.approachDuty 1000) }
    else s := by
  rw [State.makeUp, State.writeDuty_jack rfl, State.endMakeUp_eq]
  cases hm : s.stress.makingUp <;> cases hl : s.supply.latched <;> simp

/-! ## Jack samples within the limits (R137, R138, R139, R146) -/

theorem State.limitFailed_none {v : JackView} {s : State} (h : v.saturated = false)
    (hp : v.pressure ≤ s.settings.jackMax) (ht : v.travel.natAbs ≤ s.settings.ramStroke * 100) :
    s.limitFailed v = none := by
  simp [State.limitFailed, h, Nat.not_lt.mpr hp, Nat.not_lt.mpr ht]

/-- Before acceptance a sample that passes the limit checks drives the schedule. -/
theorem State.actOnSample_scheduled {v : JackView} {s : State}
    (h : s.stress.state = .waitFlow ∨ s.stress.state = .stepRamp ∨ s.stress.state = .stepHold ∨
      s.stress.state = .suspended) (hr : s.limitFailed v = none) :
    s.actOnSample v = s.scheduleSample v := by
  rcases h with h | h | h | h <;> simp only [State.actOnSample, h, hr]

theorem State.scheduleSample_ramp {v : JackView} {s : State} (h : s.stress.state = .stepRamp) :
    s.scheduleSample v = s.rampSample v.load := by
  simp only [State.scheduleSample, h]

theorem State.rampSample_reached {load i : Nat} {s : State} (hi : s.stress.step = some (i + 1))
    (h : rampMove s.settings s.stress.dir (s.stress.targets.getD i 0 : Nat) load = .reached) :
    s.rampSample load = s.reachTarget := by
  simp only [State.rampSample, hi, Option.getD_some, Stress.targetAt_succ, h]

theorem State.rampSample_toward {load i d : Nat} {dir : RampDir} {v : Valve} {s : State}
    (hi : s.stress.step = some (i + 1))
    (h : rampMove s.settings s.stress.dir (s.stress.targets.getD i 0 : Nat) load =
      .toward dir v d) :
    s.rampSample load = State.drive v d { s with stress := { s.stress with dir := dir } } := by
  simp only [State.rampSample, hi, Option.getD_some, Stress.targetAt_succ, h]

/-- In a hold, and in a suspension, the load held is made up. -/
theorem State.scheduleSample_held {v : JackView} {s : State} {level : Nat}
    (h : (s.stress.state = .stepHold ∧ ∃ i, s.stress.step = some (i + 1) ∧
        s.stress.targets.getD i 0 = level) ∨
      (s.stress.state = .suspended ∧ ∃ k, s.stress.suspension = some ⟨level, k⟩)) :
    s.scheduleSample v = s.makeUp level v.load := by
  rcases h with ⟨h, i, hi, rfl⟩ | ⟨h, k, hk⟩
  · simp only [State.scheduleSample, h, hi, Option.getD_some, Stress.targetAt_succ]
  · simp only [State.scheduleSample, h, hk, Option.map_some, Option.getD_some]

/-! ## The marks of a hold (R138) -/

theorem Step.extendedMark_iff {st : Step} :
    st.extendedMark = true ↔ st.creep = true ∧ st.ext ≠ 0 ∧ st.ext / 10 < st.hold := by
  simp [Step.extendedMark, and_assoc]

/-- The marks of a hold: its end, and for a creep step the base point and the extended point. -/
theorem State.insertHoldMarks_eq (i : Nat) (st : Step) (t : SiteTime) (s : State) :
    s.insertHoldMarks i st t =
      let a := s.insertMark (.holdEnd i) (min (t + st.hold * 1024) Config.maxTime)
      let b := if st.creep = true then
          a.insertMark (.creep i .base) (min (t + st.hold / 10 * 1024) Config.maxTime) else a
      if st.creep = true ∧ st.ext ≠ 0 ∧ st.ext / 10 < st.hold then
        b.insertMark (.creep i .extended) (min (t + st.ext / 10 * 1024) Config.maxTime) else b := by
  simp only [State.insertHoldMarks, State.insertCreepMarks, Step.extendedMark_iff]
  rfl

/-! ## Creep figures (R154, R155) -/

@[simp] theorem dispOf_some (i : Nat) (r : Reading) : dispOf i (some r) = r.disp := rfl

theorem Stress.alpha_eq {e : Stress} {i : Nat} {m f : Reading} {ms fs : List Reading}
    (hm : e.readings i .mark = m :: ms) (hf : e.readings i .stepEnd = f :: fs) :
    e.alpha i = f.disp - m.disp := by
  simp [Stress.alpha, hm, hf]

/-- The extended point is read at its own mark, or, when it falls on the end of the hold, there. -/
theorem Stress.extendedPoint_eq {e : Stress} {i : Nat} {st : Step} {f x : Reading}
    {fs : List Reading} (hf : e.readings i .stepEnd = f :: fs)
    (hx : (st.creep = true ∧ st.ext ≠ 0 ∧ st.ext / 10 < st.hold ∧
        (e.readings i .mark)[1]? = some x) ∨
      (¬ (st.creep = true ∧ st.ext ≠ 0 ∧ st.ext / 10 < st.hold) ∧ x = f)) :
    e.extendedPoint i st = some x := by
  rcases hx with ⟨hcreep, hext, hwithin, hmark⟩ | ⟨hnone, rfl⟩
  · exact (if_pos (Step.extendedMark_iff.mpr ⟨hcreep, hext, hwithin⟩)).trans hmark
  · rw [Stress.extendedPoint, if_neg (Step.extendedMark_iff.not.mpr hnone), hf]
    rfl

/-! ## Readings (R140) -/

/-- A reading of the step being run goes to the end of the log. -/
theorem State.record_eq {s : State} {i : Nat} (hi : s.stress.step = some i) (kind : ReadingKind)
    (load : Nat) (disp : Int) : s.record kind load disp =
      { s with stress := { s.stress with
        log := s.stress.log ++ [⟨i, kind, s.readingTime, load, disp⟩] } } := by
  simp only [State.record, hi, Option.getD_some]

/-- The STEP_END reading: the displacement counts from the datum, which a DATUM step sets (R142). -/
theorem State.recordStepEnd_eq {s : State} {i : Nat} (hi : s.stress.step = some i) (st : Step) :
    s.recordStepEnd st =
      { s with
        meas := if st.role = .datum then { s.meas with ramDatum := some s.meas.ram.count }
          else s.meas
        stress := { s.stress with
          log := s.stress.log ++ [⟨i, .stepEnd, s.readingTime,
            (s.stress.latest.map JackView.load).getD 0,
            if st.role = .datum then 0 else (s.stress.latest.map JackView.disp).getD 0⟩] } } := by
  unfold State.recordStepEnd
  split
  next =>
    rw [State.record_eq (s := { s with
      meas := { s.meas with ramDatum := some s.meas.ram.count } }) hi]
    rfl
  next =>
    rw [State.recordLatest, State.record_eq hi]
    rfl

/-! ## Marks that expire (R141, R147) -/

/-- A CREEP mark records the latest jack sample in a hold of its step only (R141; log entry 45). -/
theorem State.stressCreep_eq (i : Nat) (s : State) : s.stressCreep i =
    if s.stress.state = .stepHold ∧ s.stress.step = some i then
      { s with stress := { s.stress with
        log := s.stress.log ++ [⟨i, .mark, s.readingTime,
          (s.stress.latest.map JackView.load).getD 0,
          (s.stress.latest.map JackView.disp).getD 0⟩] } }
    else s := by
  unfold State.stressCreep
  split
  next h => exact State.record_eq h.2 _ _ _
  next => rfl

/-- A SUSPENSION mark aborts a suspended test (R147). -/
theorem State.stressSuspension_eq (s : State) : s.stressSuspension =
    if s.stress.state = .suspended then s.enterUnloading .abortedWall else s := by
  unfold State.stressSuspension
  split
  next h => exact if_neg (by simp [h])
  next => rfl

/-! ## Suspension and progression (R142, R146) -/

/-- A suspension: the jack stopped, its record kept, and its mark inserted, in one change. -/
theorem State.suspend_eq (k : ResumeKind) (s : State) : s.suspend k =
    State.insertMark (.suspension (s.stress.step.getD 0))
      (min (s.clock.time + s.settings.suspensionLimit * 1024) Config.maxTime)
      { s with
        outputs := if s.supply.latched = true then s.outputs else
          { s.outputs with
            jackAdvance := { s.outputs.jackAdvance with set := 0, driven := 0 }
            jackRelease := { s.outputs.jackRelease with set := 0, driven := 0 } }
        stress := { s.stress with
          state := .suspended, makingUp := false
          suspension := some ⟨(s.stress.latest.map JackView.load).getD 0, k⟩
          suspensions := satSucc 255 s.stress.suspensions }
        ports := s.ports.raise .testSuspended } := by
  rw [State.suspend, State.stopJack_eq]
  rfl

/-- The progression by the role of the step and the wall. -/
theorem State.progress_eq {s : State} {i : Nat} {st : Step} (hi : s.stress.step = some (i + 1))
    (hst : s.stress.steps[i]? = some st) : s.progress =
      if s.testQuiet = true then
        if st.role = .ret then s.evaluateLength
        else { s with stress := { s.stress with
          state := .stepRamp, step := some (i + 2), dir := .undecided } }
      else s.suspend (if st.role = .ret then .evaluate else .nextStep) := by
  simp only [State.progress, Stress.present_eq hi hst, Option.map_some, Option.some_inj, hi,
    Option.getD_some]
  by_cases hrole : st.role = .ret <;> by_cases hquiet : s.testQuiet = true <;>
    simp [hrole, hquiet, State.startRamp]

/-! ## The end of a hold (R142, R143) -/

/-- The end of the step's hold: the make-up ended and the reading recorded, then the judgement. -/
theorem State.stressHoldEnd_held {s : State} {i : Nat} {st : Step}
    (hstate : s.stress.state = .stepHold) (hi : s.stress.step = some (i + 1))
    (hst : s.stress.steps[i]? = some st) :
    s.stressHoldEnd (i + 1) = State.afterHold (i + 1) st
      { s with
        outputs := if s.stress.makingUp = true ∧ s.supply.latched = false
          then s.outputs.write .jackAdvance 0 else s.outputs
        meas := if st.role = .datum then { s.meas with ramDatum := some s.meas.ram.count }
          else s.meas
        stress := { s.stress with
          makingUp := false
          log := s.stress.log ++ [⟨i + 1, .stepEnd, s.readingTime,
            (s.stress.latest.map JackView.load).getD 0,
            if st.role = .datum then 0 else (s.stress.latest.map JackView.disp).getD 0⟩] } } := by
  have hstep : s.endMakeUp.stress.step = some (i + 1) := by rw [State.endMakeUp_eq, ← hi]
  have hrecord := State.recordStepEnd_eq hstep st
  rw [State.endMakeUp_eq] at hrecord
  rw [State.stressHoldEnd, if_pos ⟨hstate, hi⟩, Stress.stepAt_succ, hst, State.endMakeUp_eq]
  exact congrArg (State.afterHold (i + 1) st) hrecord

theorem State.stressHoldEnd_other {s : State} {i : Nat}
    (h : s.stress.state ≠ .stepHold ∨ s.stress.step ≠ some i) : s.stressHoldEnd i = s :=
  if_neg (not_and_or.mpr h)

theorem State.afterHold_plain {s : State} {i : Nat} {st : Step} (h : st.creep = false) :
    s.afterHold i st = s.progress := by
  simp [State.afterHold, h]

/-- A first figure above the limit extends the hold of an extendable step. -/
theorem State.afterHold_extends {s : State} {i : Nat} {st : Step} (hc : st.creep = true)
    (hx : s.stress.extended = false) (hlimit : s.settings.creepLimit < s.stress.alpha i)
    (hext : st.ext ≠ 0) : s.afterHold i st = s.extendHold i st (s.stress.alpha i) := by
  simp [State.afterHold, hc, hx, hlimit, hext]

/-- Any other end of a creep step's hold judges its figure, which goes to the creep list. -/
theorem State.afterHold_judged {s : State} {i : Nat} {st : Step} {ext : Option Int} {figure : Int}
    (hc : st.creep = true)
    (h : (s.stress.extended = true ∧ ext = some (s.stress.alphaExt i st) ∧
        figure = s.stress.alphaExt i st) ∨
      (s.stress.extended = false ∧ ext = none ∧ figure = s.stress.alpha i ∧
        (figure ≤ s.settings.creepLimit ∨ st.ext = 0))) :
    s.afterHold i st = State.judgeCreep figure
      { s with stress := { s.stress with
        creep := s.stress.creep ++ [⟨i, s.stress.alpha i, ext⟩]
        creepFigure := some figure } } := by
  rcases h with ⟨hx, rfl, rfl⟩ | ⟨hx, rfl, rfl, hfinal⟩
  · simp [State.afterHold, hc, hx, State.addCreep]
  · have hend : ¬ (s.settings.creepLimit < s.stress.alpha i ∧ st.ext ≠ 0) := by
      rintro ⟨hlimit, hext⟩
      rcases hfinal with hle | h0
      · exact absurd hlimit (not_lt.mpr hle)
      · exact hext h0
    simp [State.afterHold, hc, hx, hend, State.addCreep]

/-! ## A panel change reaches the test (R145, R147) -/

/-- PANEL_CHANGE_DELIVERY hands the oldest panel change in flight to the engine. -/
theorem exec_panelChangeDelivery {s : State} {before after : List Delivery} {panel : Nat}
    {x y : PanelState} (hp : s.powered = true) (hd : s.noneDue = true)
    (hs : s.deliveries = before ++ .panelChange panel x y :: after)
    (hb : ∀ d ∈ before, d.panelOf = none) :
    exec .panelChangeDelivery s =
      .next (State.stressPanelChange panel { s with deliveries := before ++ after }) :=
  (exec_of_noneDue hp hd rfl).trans (congrArg Host.Outcome.next (State.deliverKind_split hs hb rfl))

/-- Without an anchor no panel concerns the engine. -/
theorem State.stressPanelChange_idle {s : State} (h : s.stress.anchor = none) (panel : Nat) :
    s.stressPanelChange panel = s := by
  simp [State.stressPanelChange, State.concernsTest, h]

theorem State.testQuiet_eq {s : State} {pos : Position} (h : s.stress.anchor = some pos) :
    s.testQuiet = s.wallQuiet pos.panel := by
  simp only [State.testQuiet, h]

theorem State.concernsTest_iff {s : State} {pos : Position} (h : s.stress.anchor = some pos)
    (panel : Nat) : s.concernsTest panel = true ↔
      panel + 1 = pos.panel ∨ panel = pos.panel ∨ panel = pos.panel + 1 := by
  simp [State.concernsTest, h, or_assoc]

/-- What a change of a panel that concerns the test makes of it: a ramp on a wall not quiet is
suspended, a suspended test on a quiet wall resumes. -/
theorem State.stressPanelChange_eq {s : State} {pos : Position} (h : s.stress.anchor = some pos)
    (panel : Nat) : s.stressPanelChange panel =
      if panel + 1 = pos.panel ∨ panel = pos.panel ∨ panel = pos.panel + 1 then
        if s.stress.state = .stepRamp ∧ s.wallQuiet pos.panel = false then s.suspend .ramp
        else if s.stress.state = .suspended ∧ s.wallQuiet pos.panel = true then s.resumeTest
        else s
      else s := by
  simp only [State.stressPanelChange, State.concernsTest_iff h, State.testQuiet_eq h]
  congr 1
  cases s.stress.state <;> cases s.wallQuiet pos.panel <;> simp

/-- The state as a suspension ends: its mark and its record gone, the make-up ended (R147). -/
def State.suspensionEnded (s : State) : State :=
  { s with
    marks := s.marks.filter fun m => m.name != .suspension (s.stress.step.getD 0)
    outputs := if s.stress.makingUp = true ∧ s.supply.latched = false
      then s.outputs.write .jackAdvance 0 else s.outputs
    stress := { s.stress with makingUp := false, suspension := none } }

/-- A resumed test goes on by the resume kind of its suspension. -/
theorem State.resumeTest_eq {s : State} {i load : Nat} {k : ResumeKind}
    (hi : s.stress.step = some i) (hk : s.stress.suspension = some ⟨load, k⟩) : s.resumeTest =
      match k with
      | .ramp => s.suspensionEnded.startRamp i
      | .nextStep => s.suspensionEnded.startRamp (i + 1)
      | .evaluate => s.suspensionEnded.evaluateLength := by
  have hended : { (s.removeMark (.suspension i)).endMakeUp with
      stress := { (s.removeMark (.suspension i)).endMakeUp.stress with suspension := none } } =
      s.suspensionEnded := by
    rw [State.endMakeUp_eq, State.suspensionEnded, hi]
    rfl
  simp only [State.resumeTest, hk, hi, Option.map_some, Option.getD_some, hended]
  cases k <;> rfl

end Sys2Proof.Machine

namespace Sys2Proof.Proofs

open Sys2Proof.Machine

/-- Settles O36: a sample by the engine's state, on a ramp by the move that it makes. -/
theorem rampsAndMakeUps : Obligations.RampsAndMakeUps := by
  rintro code s u x v hp hd rfl rfl hsat hmax hstroke hu
  have hschedule (h : s.stress.state = .waitFlow ∨ s.stress.state = .stepRamp ∨
      s.stress.state = .stepHold ∨ s.stress.state = .suspended) :
      exec (.jackSample code) s = .next (u.scheduleSample (s.jackView (s.jackSampleOf code))) := by
    have hne : s.stress.state ≠ .idle := by
      rintro hi
      simp [hi] at h
    have hr : u.limitFailed (s.jackView (s.jackSampleOf code)) = none := by
      rw [hu]
      exact State.limitFailed_none hsat hmax hstroke
    rw [exec_jackSample_kept hp hd code hne, ← hu,
      State.actOnSample_scheduled (by rw [hu]; exact h) hr]
  refine ⟨fun h => ?_, fun i st target h hi hst htarget => ?_, fun level h => ?_⟩
  · rw [hschedule (.inl h)]
    have hstate : u.stress.state = .waitFlow := by rw [hu, ← h]
    simp only [State.scheduleSample, hstate]
  · have hstep : u.stress.step = some (i + 1) := by rw [hu, ← hi]
    have hsteps : u.stress.steps[i]? = some st := by rw [hu, ← hst]
    have hmove : rampMove u.settings u.stress.dir (u.stress.targets.getD i 0 : Nat)
        (s.jackView (s.jackSampleOf code)).load =
        rampMove s.settings s.stress.dir target (s.jackSampleOf code).load := by
      rw [hu, htarget]
      rfl
    rw [hschedule (.inr (.inl h)), State.scheduleSample_ramp (by rw [hu, ← h])]
    refine ⟨fun hreached => ?_, fun hdir hlt => ?_, fun hdir hlt => ?_⟩
    · rw [State.rampSample_reached hstep (hmove.trans (rampMove_reached hreached)),
        State.reachTarget_eq hstep hsteps, hu]
    · rw [State.rampSample_toward hstep (hmove.trans (rampMove_up hdir hlt))]
    · rw [State.rampSample_toward hstep (hmove.trans (rampMove_down hdir hlt))]
  · have hheld := State.scheduleSample_held (v := s.jackView (s.jackSampleOf code)) (s := u)
      (level := level) (by rw [hu]; exact h)
    rw [hschedule (by tauto), hheld, State.makeUp_eq, hu]
    rfl

/-- Settles O37: the marks of a hold and the duties of a ramp, the creep figures and the progression
by their equations, each expiry by its mark at the head of the list. -/
theorem holdMarksAndCreepFigures : Obligations.HoldMarksAndCreepFigures := by
  refine ⟨⟨State.insertHoldMarks_eq, fun v d s hv => State.drive_eq hv d s⟩,
    ⟨fun e i m f ms fs hm hf => Stress.alpha_eq hm hf, fun e i st f g x fs hf hx => ?_,
      fun s i st hi hst => State.progress_eq hi hst⟩,
    fun i pt s due rest hp hm hd => ?_, fun i s due rest hp hm hd => ?_⟩
  · simp [Stress.alphaExt, hf, Stress.extendedPoint_eq hf hx]
  · exact (exec_command_due hp hm hd).trans (congrArg Host.Outcome.next (State.stressCreep_eq i _))
  · exact (exec_command_due hp hm hd).trans
      (congrArg Host.Outcome.next (State.stressSuspension_eq _))

/-- Settles O38: the end of a hold on another step or state, and on the mark's own by the step and
its figure. -/
theorem holdEndsAreJudged : Obligations.HoldEndsAreJudged := by
  intro i st s u due rest hp hm hd
  have hexec : exec .holdEndExpiry s =
      .next (State.stressHoldEnd (i + 1) { s with marks := rest }) := exec_command_due hp hm hd
  refine ⟨fun h => ?_, fun hstate hi hst hu => ?_⟩
  · exact hexec.trans (congrArg Host.Outcome.next
      (State.stressHoldEnd_other (s := { s with marks := rest }) h))
  · have hjudge : exec .holdEndExpiry s = .next (u.afterHold (i + 1) st) := by
      rw [hexec, hu]
      exact congrArg Host.Outcome.next
        (State.stressHoldEnd_held (s := { s with marks := rest }) hstate hi hst)
    have hextended : u.stress.extended = s.stress.extended := by rw [hu]
    have hstart : u.stress.holdStart = s.stress.holdStart := by rw [hu]
    have hsettings : u.settings = s.settings := by rw [hu]
    rw [hjudge, ← hextended, ← hstart, ← hsettings]
    refine ⟨fun hc => ?_, fun hc hx hlimit hext => ?_, fun ext figure w hc h hw => ?_⟩
    · rw [State.afterHold_plain hc]
    · rw [State.afterHold_extends hc hx hlimit hext]
      rfl
    · have hlimits : w.settings = u.settings := by rw [hw]
      rw [State.afterHold_judged hc h, ← hw, State.judgeCreep, hlimits]

/-- Settles O39: a suspension by what it writes; a panel change by whether it concerns the test, the
engine's state and the wall. -/
theorem panelChangesReachTest : Obligations.PanelChangesReachTest := by
  refine ⟨State.suspend_eq, fun panel x y s u w before after hp hd hs hb hu hw => ⟨fun h => ?_,
    fun pos h => ?_⟩⟩
  · rw [exec_panelChangeDelivery hp hd hs hb, ← hu, State.stressPanelChange_idle (by rw [hu, ← h])]
  · have hstate : u.stress.state = s.stress.state := by rw [hu]
    have hquiet : u.wallQuiet pos.panel = s.wallQuiet pos.panel := by rw [hu]; rfl
    have hended : u.suspensionEnded = w := by rw [hw, hu]; rfl
    rw [exec_panelChangeDelivery hp hd hs hb, ← hu,
      State.stressPanelChange_eq (pos := pos) (by rw [hu, ← h]), hstate, hquiet]
    refine ⟨fun hcase => ?_, fun hpanel hramp hwall => ?_,
      fun hpanel hsusp hwall load i hi => ?_⟩
    · congr 1
      split_ifs with hpanel hramp hsusp
      · simp_all
      · simp_all
      · rfl
      · rfl
    · rw [if_pos hpanel, if_pos ⟨hramp, hwall⟩]
    · have hresume (k : ResumeKind) (hk : s.stress.suspension = some ⟨load, k⟩) :=
        State.resumeTest_eq (s := u) (i := i) (k := k) (by rw [hu, ← hi]) (by rw [hu, ← hk])
      simp only [hended] at hresume
      rw [if_pos hpanel, if_neg (by simp [hsusp]), if_pos ⟨hsusp, hwall⟩]
      exact ⟨fun hk => congrArg Host.Outcome.next (hresume _ hk),
        fun hk => congrArg Host.Outcome.next (hresume _ hk),
        fun hk => congrArg Host.Outcome.next (hresume _ hk)⟩

end Sys2Proof.Proofs
end

section
/-! SUPPORT. The apparent free length: its figures, its quotient, and the verdict. -/

namespace Sys2Proof.Machine

/-! ## The apparent free length (R156, R157) -/

theorem Stress.endLoad_eq {e : Stress} {i : Nat} {r : Reading}
    (h : (e.readings i .stepEnd).getLast? = some r) : e.endLoad i = r.load := by
  simp [Stress.endLoad, Stress.stepEnd, h]

theorem Stress.endDisp_eq {e : Stress} {i : Nat} {r : Reading}
    (h : (e.readings i .stepEnd).getLast? = some r) : e.endDisp i = r.disp := by
  simp [Stress.endDisp, Stress.stepEnd, h]

theorem lengthDeterminate_eq_false {deltaP deltaS : Int} :
    lengthDeterminate deltaP deltaS = false ↔ deltaP < 100 ∨ deltaS ≤ 0 := by
  simp only [lengthDeterminate, Bool.and_eq_false_iff, decide_eq_false_iff_not, not_le, not_lt]

theorem lengthPasses_eq_false {d : Design} {l : Nat} : lengthPasses d l = false ↔
    l < roundDivNat (d.freeLength * 9) 10 ∨ d.freeLength + roundDivNat d.bondLength 2 < l := by
  simp only [lengthPasses, Bool.and_eq_false_iff, decide_eq_false_iff_not, not_le]

/-- Rounding of a quotient that is not negative is that of naturals (R41). -/
theorem roundDiv_natCast (a b : Nat) : roundDiv a b = roundDivNat a b := by
  simp [roundDiv]

/-- The free length of the figures, as a quotient of integers. -/
theorem apparentLength_cast (d : Design) (deltaP deltaS : Int) :
    (apparentLength d deltaP deltaS : Int) =
      if deltaP < 100 ∨ deltaS ≤ 0 then 0
      else min 65535
        (roundDiv (d.tendonArea * d.modulus * deltaS) (100 * deltaP.toNat)) := by
  unfold apparentLength
  split_ifs with hdet hbad hbad
  · simp [lengthDeterminate_eq_false.mpr hbad] at hdet
  · obtain ⟨n, rfl⟩ : ∃ n : Nat, deltaS = n := Int.eq_ofNat_of_zero_le (by omega)
    have hcast : (d.tendonArea * d.modulus * n : Int) = (d.tendonArea * d.modulus * n : Nat) := by
      push_cast
      rfl
    rw [hcast, roundDiv_natCast, Int.toNat_natCast]
    push_cast
    rfl
  · rfl
  · exact absurd (lengthDeterminate_eq_false.mp (by simpa using hdet)) hbad

/-- The evaluation by the figures of the log: indeterminate, out of its limits, or accepted. -/
theorem State.evaluateLength_eq {s : State} {d : Design} {f : LengthFigures}
    (hd : s.stress.design = some d) (hf : s.stress.lengthFigures d = f) : s.evaluateLength =
      if f.deltaP < 100 ∨ f.deltaS ≤ 0 then
        State.enterUnloading .lengthIndeterminate
          { s with stress := { s.stress with lengths := some f } }
      else if f.lApp < roundDivNat (d.freeLength * 9) 10 ∨
          d.freeLength + roundDivNat d.bondLength 2 < f.lApp then
        State.enterUnloading .lengthFail { s with stress := { s.stress with lengths := some f } }
      else State.acceptTest { s with stress := { s.stress with lengths := some f } } := by
  simp only [State.evaluateLength, hd, hf, Bool.not_eq_true', lengthDeterminate_eq_false,
    lengthPasses_eq_false]

end Sys2Proof.Machine

namespace Sys2Proof.Proofs

open Sys2Proof.Machine

/-- Settles O40: the figures by the last step ends, the length by its cast, the verdict by the two
checks in order. -/
theorem freeLengthIsJudged : Obligations.FreeLengthIsJudged := by
  intro s d datum peak ret deltaP deltaS l hd hdatum hpeak hret hP hS hl u hu
  have hlen : apparentLength d deltaP deltaS = l := by
    have hcast := apparentLength_cast d deltaP deltaS
    rw [← hl] at hcast
    exact_mod_cast hcast
  have hf : s.stress.lengthFigures d =
      ⟨datum.load, peak.load, peak.disp, ret.disp, deltaP, deltaS, l⟩ := by
    simp only [Stress.lengthFigures, Stress.endLoad_eq hdatum, Stress.endLoad_eq hpeak,
      Stress.endDisp_eq hpeak, Stress.endDisp_eq hret, ← hP, ← hS, hlen]
  rw [State.evaluateLength_eq hd hf, hu]
  rfl

end Sys2Proof.Proofs
end

section
/-! SUPPORT. The check of a profile: what each step's checks ask, and the conditions on them all. -/

namespace Sys2Proof.Machine

/-! ## Lists read by index -/

/-- What holds at every index of a list holds of every element. -/
theorem forall_index_iff_forall_mem {α : Type} {l : List α} {p : α → Prop} :
    (∀ (k : Nat) x, l[k]? = some x → p x) ↔ ∀ x ∈ l, p x := by
  simp only [List.mem_iff_getElem?, forall_exists_index]
  exact forall_comm

/-- At most m elements of a list have a property just when each that has it finds fewer than m
before it. -/
theorem countP_le_iff_take {α : Type} {p : α → Bool} {l : List α} {m : Nat} : l.countP p ≤ m ↔
    ∀ k x, l[k]? = some x → p x = true → (l.take k).countP p < m := by
  constructor
  · intro h k x hk hx
    obtain ⟨hlt, rfl⟩ := List.getElem?_eq_some_iff.mp hk
    rw [← List.take_append_drop k l, List.drop_eq_getElem_cons hlt, List.countP_append,
      List.countP_cons_of_pos hx] at h
    omega
  · intro h
    induction l using List.reverseRecOn with
    | nil => simp
    | append_singleton l a ih =>
      have hl : l.countP p ≤ m := ih fun k x hk hx => by
        have hlt : k < l.length := (List.getElem?_eq_some_iff.mp hk).1
        have hcount := h k x (by rw [List.getElem?_append_left hlt, hk]) hx
        rwa [List.take_append_of_le_length hlt.le] at hcount
      rw [List.countP_append, List.countP_singleton]
      split
      next ha =>
        have hcount := h l.length a (by simp) ha
        rw [List.take_left] at hcount
        omega
      next => exact hl

/-! ## The checks of a step (R130) -/

theorem stepFault_eq_none {n i : Nat} {before : List Step} {st : Step} :
    stepFault n i before st = none ↔
      st.inRange = true ∧ st.datumOk i = true ∧ st.peakOk before = true ∧
        st.returnOk n i before = true ∧ st.creepCountOk before = true ∧ st.creepHoldOk = true ∧
        st.extendOk = true := by
  simp only [stepFault]
  split_ifs <;> simp_all

theorem Step.inRange_iff {st : Step} : st.inRange = true ↔
    st.target ≤ 1600 ∧ st.hold ≤ 7200 ∧ (st.ext = 0 ∨ (20 ≤ st.ext ∧ st.ext ≤ 72000)) := by
  simp [Step.inRange, and_assoc]

theorem Step.datumOk_iff {k : Nat} {st : Step} : st.datumOk (1 + k) = true ↔
    (st.role = .datum ↔ k = 0) ∧ (k = 0 → 60 ≤ st.hold) := by
  by_cases hk : k = 0 <;> simp [Step.datumOk, hk]

theorem Step.peakOk_iff {before : List Step} {st : Step} : st.peakOk before = true ↔
    (decide (st.role = .peak) = true → before.countP (fun x => x.role = .peak) < 1) := by
  by_cases hp : st.role = .peak <;> simp [Step.peakOk, hp, List.countP_eq_zero]

theorem Step.returnOk_iff {n i : Nat} {before : List Step} {st : Step} :
    st.returnOk n i before = true ↔
      (st.role = .ret → (∃ x ∈ before, x.role = .peak) ∧ (∀ x ∈ before, x.role ≠ .ret) ∧ i = n ∧
        before.head?.map Step.target = some st.target) := by
  by_cases hr : st.role = .ret <;> simp [Step.returnOk, hr, and_assoc]

theorem Step.creepCountOk_iff {before : List Step} {st : Step} : st.creepCountOk before = true ↔
    (st.creep = true → st.role ≠ .datum) ∧
      (st.creep = true → before.countP (fun x => x.creep) < 4) := by
  cases hc : st.creep <;> simp [Step.creepCountOk, hc, List.countP_eq_length_filter]

theorem Step.creepHoldOk_iff {st : Step} : st.creepHoldOk = true ↔
    (st.creep = true → st.hold % 10 = 0 ∧ 60 ≤ st.hold) := by
  cases hc : st.creep <;> simp [Step.creepHoldOk, hc]

theorem Step.extendOk_iff {st : Step} : st.extendOk = true ↔
    (st.ext ≠ 0 →
      st.creep = true ∧ st.ext % 10 = 0 ∧ st.hold < st.ext ∧ st.ext / 10 ≤ st.hold) := by
  by_cases he : st.ext = 0 <;> simp [Step.extendOk, he, and_assoc]

/-! ## The checks of a profile (R130) -/

/-- The steps pass one by one, each by the steps before it. -/
theorem stepsFault_map_some {n i : Nat} {before rest : List Step} :
    stepsFault n i before (rest.map some) = none ↔
      ∀ k st, rest[k]? = some st → stepFault n (i + k) (before ++ rest.take k) st = none := by
  induction rest generalizing i before with
  | nil => simp [stepsFault]
  | cons x rest ih =>
    have hcons : stepsFault n i before ((x :: rest).map some) = none ↔
        stepFault n i before x = none ∧
          stepsFault n (i + 1) (before ++ [x]) (rest.map some) = none := by
      rw [List.map_cons, stepsFault]
      cases stepFault n i before x <;> simp
    rw [hcons, ih]
    constructor
    · rintro ⟨hx, hrest⟩ k st hk
      cases k with
      | zero =>
        obtain rfl : x = st := by simpa using hk
        simpa using hx
      | succ k => simpa [Nat.add_assoc, Nat.add_comm 1] using hrest k st hk
    · intro h
      refine ⟨by simpa using h 0 x rfl, fun k st hk => ?_⟩
      simpa [Nat.add_assoc, Nat.add_comm 1] using h (k + 1) st hk

theorem wholeFault_map_some {steps : List Step} : wholeFault (steps.map some) = none ↔
    3 ≤ steps.length ∧ steps.length ≤ 16 ∧ (∃ st ∈ steps, st.role = .peak) ∧
      ∃ st ∈ steps, st.role = .ret := by
  have hany (r : StepRole) : (steps.map some).any (fun st => st.map Step.role == some r) = true ↔
      ∃ st ∈ steps, st.role = r := by simp
  rw [wholeFault, ← hany, ← hany, List.length_map]
  split_ifs <;> simp_all
  omega

theorem profileFault_map_some {steps : List Step} : profileFault (steps.map some) = none ↔
    (∀ k st, steps[k]? = some st → stepFault steps.length (1 + k) (steps.take k) st = none) ∧
      wholeFault (steps.map some) = none := by
  have hsteps := stepsFault_map_some (n := steps.length) (i := 1) (before := []) (rest := steps)
  simp only [List.nil_append] at hsteps
  rw [← hsteps, profileFault, List.length_map]
  cases stepsFault steps.length 1 [] (steps.map some) <;> simp

/-- With a PEAK step there, some RETURN step and none that is out of its place is one RETURN step,
the last, with the target of step 1. -/
theorem returnOk_iff_last {steps : List Step} (hlen : 2 ≤ steps.length)
    (hpeak : ∃ st ∈ steps, st.role = .peak) :
    (∃ st ∈ steps, st.role = .ret) ∧ (∀ k (st : Step), steps[k]? = some st →
        st.returnOk steps.length (1 + k) (steps.take k) = true) ↔
      (∀ k st, steps[k]? = some st → (st.role = .ret ↔ k + 1 = steps.length)) ∧
        steps.getLast?.map Step.target = steps.head?.map Step.target := by
  have hhead {k : Nat} (hk : k + 1 = steps.length) : (steps.take k).head? = steps.head? := by
    rw [List.head?_take, if_neg (by omega)]
  have hlast {k : Nat} {st : Step} (hk : k + 1 = steps.length) (hst : steps[k]? = some st) :
      steps.getLast? = some st := by
    rw [List.getLast?_eq_getElem?, ← hst, ← hk, Nat.add_sub_cancel]
  simp only [Step.returnOk_iff]
  constructor
  · rintro ⟨⟨r, hr, hret⟩, h⟩
    obtain ⟨j, hj⟩ := List.mem_iff_getElem?.mp hr
    obtain ⟨-, -, hend, htarget⟩ := h j r hj hret
    have hj' : j + 1 = steps.length := by omega
    refine ⟨fun k st hst => ⟨fun hs => ?_, fun hk => ?_⟩, ?_⟩
    · obtain ⟨-, -, hk, -⟩ := h k st hst hs
      omega
    · obtain rfl : k = j := by omega
      obtain rfl : r = st := Option.some.inj (hj.symm.trans hst)
      exact hret
    · rw [hlast hj' hj, ← hhead hj', htarget]
      rfl
  · rintro ⟨hrole, htarget⟩
    obtain ⟨p, hp, hprole⟩ := hpeak
    refine ⟨?_, fun k st hst hs => ?_⟩
    · have hlt : steps.length - 1 < steps.length := by omega
      exact ⟨_, List.getElem_mem hlt, (hrole _ _ (List.getElem?_eq_getElem hlt)).mpr (by omega)⟩
    · have hk : k + 1 = steps.length := (hrole k st hst).mp hs
      refine ⟨⟨p, ?_, hprole⟩, fun x hx hxret => ?_, by omega, ?_⟩
      · obtain ⟨j, hlt, rfl⟩ := List.mem_iff_getElem.mp hp
        have hne : j ≠ k := fun hjk => by
          subst hjk
          simp_all
        exact List.mem_take_iff_getElem.mpr ⟨j, by omega, rfl⟩
      · obtain ⟨j, hlt, rfl⟩ := List.mem_take_iff_getElem.mp hx
        have hj := (hrole j _ (List.getElem?_eq_getElem (by omega))).mp hxret
        omega
      · rw [hhead hk, ← htarget, hlast hk hst]
        rfl

/-- Some PEAK step, and none that finds another before it: exactly one. -/
theorem peakOk_iff_once {steps : List Step} :
    (∃ st ∈ steps, st.role = .peak) ∧
        (∀ k (st : Step), steps[k]? = some st → st.peakOk (steps.take k) = true) ↔
      steps.countP (fun st => st.role = .peak) = 1 := by
  have hsome : (∃ st ∈ steps, st.role = .peak) ↔ 0 < steps.countP fun st => st.role = .peak := by
    simp
  simp only [Step.peakOk_iff, hsome, ← countP_le_iff_take]
  omega

end Sys2Proof.Machine

namespace Sys2Proof.Proofs

open Sys2Proof.Machine

/-- Settles O48: the steps' checks one by one become conditions on the whole list; those that look at
the steps before become counts, and the place of the last step. -/
theorem profileCheckIsExact : Obligations.ProfileCheckIsExact := by
  intro steps
  simp only [profileFault_map_some, wholeFault_map_some, stepFault_eq_none, imp_and, forall_and,
    Step.inRange_iff, Step.datumOk_iff, Step.creepCountOk_iff, Step.creepHoldOk_iff,
    Step.extendOk_iff, forall_index_iff_forall_mem, ← countP_le_iff_take]
  constructor
  · rintro ⟨⟨hrange, ⟨hdatum, hhold⟩, hpeak, hret, ⟨hcreep, hcount⟩, hcreepHold, hext⟩, hlo, hhi,
      hsomePeak, hsomeRet⟩
    obtain ⟨hlast, htarget⟩ := (returnOk_iff_last (by omega) hsomePeak).mp ⟨hsomeRet, hret⟩
    exact ⟨hlo, hhi, hrange, hdatum, fun st hst => hhold 0 st hst rfl,
      peakOk_iff_once.mp ⟨hsomePeak, hpeak⟩, hlast, htarget, hcount, ⟨hcreep, hcreepHold⟩, hext⟩
  · rintro ⟨hlo, hhi, hrange, hdatum, hhold, hpeakOnce, hlast, htarget, hcount,
      ⟨hcreep, hcreepHold⟩, hext⟩
    obtain ⟨hsomePeak, hpeak⟩ := peakOk_iff_once.mpr hpeakOnce
    obtain ⟨hsomeRet, hret⟩ := (returnOk_iff_last (by omega) hsomePeak).mpr ⟨hlast, htarget⟩
    have hfirst : ∀ (k : Nat) st, steps[k]? = some st → k = 0 → 60 ≤ st.hold := by
      rintro _ st hst rfl
      exact hhold st hst
    exact ⟨⟨hrange, ⟨hdatum, hfirst⟩, hpeak, hret, ⟨hcreep, hcount⟩, hcreepHold, hext⟩, hlo, hhi,
      hsomePeak, hsomeRet⟩

end Sys2Proof.Proofs
end

section
/-! SUPPORT. The lock-off: a jack sample by its phase, the expiry of the SEAT mark, the lift-off
capture, the decision of a lift, and the end. -/

namespace Sys2Proof.Machine

/-! ## Jack samples within the limits (R137, R159, R166) -/

/-- In the lock-off a sample that passes the limit checks drives the phase. -/
theorem State.actOnSample_locking {v : JackView} {s : State}
    (h : s.stress.state = .lockRamp ∨ s.stress.state = .seating ∨ s.stress.state = .liftCheck)
    (hr : s.limitFailed v = none) : s.actOnSample v = s.lockSample v := by
  rcases h with h | h | h <;> simp only [State.actOnSample, h, hr]

/-- A frozen lock-off makes nothing of a sample. -/
theorem State.lockSample_held {v : JackView} {s : State} (h : s.stress.lock.hold ≠ .none) :
    s.lockSample v = s := if_neg h

theorem State.lockSample_ramp {v : JackView} {s : State} (h : s.stress.lock.hold = .none)
    (hs : s.stress.state = .lockRamp) : s.lockSample v = s.lockRampSample v.load := by
  simp only [State.lockSample, h, hs, if_true]

theorem State.lockSample_seating {v : JackView} {s : State} (h : s.stress.lock.hold = .none)
    (hs : s.stress.state = .seating) : s.lockSample v = s.seatingSample v.load := by
  simp only [State.lockSample, h, hs, if_true]

theorem State.lockSample_lift {v : JackView} {s : State} (h : s.stress.lock.hold = .none)
    (hs : s.stress.state = .liftCheck) : s.lockSample v = s.liftSample v := by
  simp only [State.lockSample, h, hs, if_true]

/-! ## LOCK_RAMP (R159) -/

theorem State.lockRampSample_reached {load : Nat} {target : Int} {s : State}
    (ht : s.stress.lock.target = some target)
    (h : rampMove s.settings s.stress.dir target load = .reached) :
    s.lockRampSample load = s.lockReached := by
  simp only [State.lockRampSample, ht, Option.getD_some, h]

theorem State.lockRampSample_toward {load d : Nat} {target : Int} {dir : RampDir} {v : Valve}
    {s : State} (ht : s.stress.lock.target = some target)
    (h : rampMove s.settings s.stress.dir target load = .toward dir v d) :
    s.lockRampSample load = State.drive v d { s with stress := { s.stress with dir := dir } } := by
  simp only [State.lockRampSample, ht, Option.getD_some, h]

/-- The lock target reached: the jack stopped, the LOCK reading taken of the latest sample, and the
jack released into the seating. -/
theorem State.lockReached_eq {s : State} {v : JackView} (h : s.stress.latest = some v) :
    s.lockReached =
      { s with
        outputs := if s.supply.latched = true then s.outputs else
          Outputs.write .jackRelease (min s.settings.rampDuty 1000)
            { s.outputs with
              jackAdvance := { s.outputs.jackAdvance with set := 0, driven := 0 }
              jackRelease := { s.outputs.jackRelease with set := 0, driven := 0 } }
        stress := { s.stress with
          state := .seating
          log := s.stress.log ++
            [⟨s.stress.step.getD 0, .lock, s.readingTime, v.load, v.disp⟩]
          lock := { s.stress.lock with sLock := some v.disp, seatInserted := false } } } := by
  rw [State.lockReached, State.beginSeating, State.writeDuty_jack rfl, State.stopJack_eq]
  simp only [State.recordLatest, State.record, Stress.latestLoad, Stress.latestDisp, h,
    Option.map_some, Option.getD_some]
  split <;> rfl

/-! ## SEATING (R160) -/

/-- A sample in SEATING: the load is let down until the SEAT mark is in the list. -/
theorem State.seatingSample_eq (load : Nat) (s : State) : s.seatingSample load =
    if s.stress.lock.seatInserted = true then s
    else if load ≤ s.settings.approachBand then
      State.insertMark (.seat (s.stress.step.getD 0))
        (min (s.clock.time + s.settings.seatTime * 1024) Config.maxTime)
        { s with
          outputs := if s.supply.latched = true then s.outputs
            else s.outputs.write .jackRelease 0
          stress := { s.stress with lock := { s.stress.lock with seatInserted := true } } }
    else s.drive .jackRelease s.settings.rampDuty := by
  rw [State.seatingSample, State.writeDuty_jack rfl]
  rfl

/-- The SEAT mark expires in SEATING: the SEAT reading, the draw-in, and the compare point from which
the lift is watched. -/
theorem State.stressSeat_eq (s : State) : s.stressSeat =
    if s.stress.state = .seating then
      { s with
        meas := { s.meas with
          compare := some (s.stress.lock.sLock.getD 0 + s.settings.liftTravel) }
        outputs := if s.supply.latched = true then s.outputs
          else s.outputs.write .jackAdvance (min s.settings.approachDuty 1000)
        stress := { s.stress with
          state := .liftCheck
          log := s.stress.log ++ [⟨s.stress.step.getD 0, .seat, s.readingTime,
            s.stress.latestLoad, s.stress.latestDisp⟩]
          lock := { s.stress.lock with
            sSeat := some s.stress.latestDisp
            drawIn := some (s.stress.lock.sLock.getD 0 - s.stress.latestDisp)
            point := some (s.stress.lock.sLock.getD 0 + s.settings.liftTravel) } } }
    else s := by
  rw [State.stressSeat, State.beginLift, State.writeDuty_jack rfl]
  rfl

/-! ## The lift (R161, R162, R163) -/

/-- A sample in LIFT_CHECK above the not-lifted limit is decided as a lift that did not come. -/
theorem State.liftSample_eq (v : JackView) (s : State) : s.liftSample v =
    if roundDivNat (s.stress.pLock.getD 0 * (1000 + 2 * s.settings.lockTolerance)) 1000 <
        v.load then
      State.decideLift v.load
        { s with
          outputs := if s.supply.latched = true then s.outputs
            else s.outputs.write .jackAdvance 0
          meas := { s.meas with compare := none }
          stress := { s.stress with
            log := s.stress.log ++
              [⟨s.stress.step.getD 0, .lift, s.readingTime, v.load, v.disp⟩]
            lock := { s.stress.lock with residual := some v.load, notLifted := true } } }
    else s := by
  rw [State.liftSample, State.writeDuty_jack rfl]
  rfl

/-- A capture in LIFT_CHECK, no hold being on: decided at its load, or with the channel over range the
end of the lock-off. -/
theorem State.stressCapture_eq (x : Sample) (s : State) : s.stressCapture x =
    if s.stress.state = .liftCheck ∧ s.stress.lock.hold = .none then
      if x.saturated = true then (s.endLockOff .lockoffIncomplete).raise .channelTrip
      else
        State.decideLift x.load
          { s with
            outputs := if s.supply.latched = true then s.outputs
              else s.outputs.write .jackAdvance 0
            stress := { s.stress with
              log := s.stress.log ++ [⟨s.stress.step.getD 0, .lift, s.readingTime, x.load,
                s.stress.lock.point.getD 0⟩]
              lock := { s.stress.lock with residual := some x.load, notLifted := false } } }
    else s := by
  rw [State.stressCapture, State.writeDuty_jack rfl]
  rfl

/-- LIFT_OFF_CAPTURE hands the oldest capture in flight to the engine. -/
theorem exec_liftOffCapture {s : State} {before after : List Delivery} {x : Sample}
    (hp : s.powered = true) (hd : s.noneDue = true)
    (hs : s.deliveries = before ++ .capture x :: after)
    (hb : ∀ d ∈ before, d.captureOf = none) :
    exec .liftOffCapture s =
      .next (State.stressCapture x { s with deliveries := before ++ after }) :=
  (exec_of_noneDue hp hd rfl).trans (congrArg Host.Outcome.next (State.deliverKind_split hs hb rfl))

theorem State.withinBand_iff {residual lock : Nat} {s : State} (h : s.stress.pLock = some lock) :
    s.withinBand residual = true ↔ ((residual : Int) - lock).natAbs ≤
      roundDivNat (lock * s.settings.lockTolerance) 1000 := by
  simp only [State.withinBand, State.lockBand, h, Option.getD_some, decide_eq_true_iff]

/-- The retry aims as far above P_lock as the residual lies below it, and at most at the peak. -/
theorem State.retryTarget_eq {residual lock : Nat} {s : State} (h : s.stress.pLock = some lock) :
    s.retryTarget residual =
      min (s.stress.targetAt (s.stress.roleIndex .peak) : Int) (2 * lock - residual) := by
  simp only [State.retryTarget, h, Option.getD_some]
  omega

/-- The decision of a lift by its band and by the retries that went before. -/
theorem State.decideLift_eq {lock : Nat} {s : State} (h : s.stress.pLock = some lock)
    (residual : Nat) : s.decideLift residual =
      if ((residual : Int) - lock).natAbs ≤
          roundDivNat (lock * s.settings.lockTolerance) 1000 then s.endLockOff .accepted
      else if s.stress.lock.retries = 0 then
        { s with stress := { s.stress with
          state := .lockRamp, dir := .undecided
          lock := { s.stress.lock with
            retries := 1
            target := some (min (s.stress.targetAt (s.stress.roleIndex .peak) : Int)
              (2 * lock - residual)) } } }
      else s.endLockOff .lockoffDeviation := by
  simp only [State.decideLift, State.withinBand_iff h, State.retryLock, State.retryTarget_eq h]

/-! ## The end of the lock-off (R164) -/

/-- FINAL_RELEASE: the marks and the compare dropped, the flow released, the result pending, and the
jack released unless a trip holds the outputs. -/
theorem State.endLockOff_eq (result : TestCode) (s : State) : s.endLockOff result =
    { s with
      marks := s.marks.filter fun m => !m.name.ofStress
      meas := { s.meas with compare := none }
      deliveries := s.deliveries ++ [.release .stress]
      outputs := if s.supply.latched = true then s.outputs
        else (s.outputs.write .jackAdvance 0).write .jackRelease (min s.settings.rampDuty 1000)
      stress := { s.stress with
        state := .finalRelease, pendingEnd := some result, tripWait := s.supply.latched
        lock := { s.stress.lock with hold := .none, result := some result } } } := by
  simp only [State.endLockOff, State.removeStressMarks, State.unsetCompare, State.releaseFlow,
    State.send, State.writeDuty_jack (v := .jackAdvance) rfl,
    State.writeDuty_jack (v := .jackRelease) rfl]
  cases s.supply.latched <;> rfl

end Sys2Proof.Machine

namespace Sys2Proof.Proofs

open Sys2Proof.Machine

/-- Settles O41: a sample in the lock-off by the hold, then by the phase, in LOCK_RAMP by the move that
it makes. -/
theorem lockOffSamples : Obligations.LockOffSamples := by
  rintro code s u x v hp hd rfl rfl hsat hmax hstroke hu
  have hlocking (h : s.stress.state = .lockRamp ∨ s.stress.state = .seating ∨
      s.stress.state = .liftCheck) :
      exec (.jackSample code) s = .next (u.lockSample (s.jackView (s.jackSampleOf code))) := by
    have hne : s.stress.state ≠ .idle := by
      rintro hi
      simp [hi] at h
    have hr : u.limitFailed (s.jackView (s.jackSampleOf code)) = none := by
      rw [hu]
      exact State.limitFailed_none hsat hmax hstroke
    rw [exec_jackSample_kept hp hd code hne, ← hu,
      State.actOnSample_locking (by rw [hu]; exact h) hr]
  have hhold : u.stress.lock.hold = s.stress.lock.hold := by rw [hu]
  have hstate : u.stress.state = s.stress.state := by rw [hu]
  refine ⟨fun h hheld => ?_, fun hfree => ⟨fun target h ht => ?_, fun h => ?_, fun h => ?_⟩⟩
  · rw [hlocking h, State.lockSample_held (hhold.trans_ne hheld)]
  · have htarget : u.stress.lock.target = some target := by rw [hu, ← ht]
    have hmove : rampMove u.settings u.stress.dir target
        (s.jackView (s.jackSampleOf code)).load =
        rampMove s.settings s.stress.dir target (s.jackSampleOf code).load := by rw [hu]; rfl
    rw [hlocking (.inl h), State.lockSample_ramp (hhold.trans hfree) (hstate.trans h)]
    refine ⟨fun hreached => ?_, fun hdir hlt => ?_, fun hdir hlt => ?_⟩
    · rw [State.lockRampSample_reached htarget (hmove.trans (rampMove_reached hreached)),
        State.lockReached_eq (by rw [hu]), hu]
      rfl
    · rw [State.lockRampSample_toward htarget (hmove.trans (rampMove_up hdir hlt))]
    · rw [State.lockRampSample_toward htarget (hmove.trans (rampMove_down hdir hlt))]
  · rw [hlocking (.inr (.inl h)), State.lockSample_seating (hhold.trans hfree) (hstate.trans h),
      State.seatingSample_eq, hu]
    rfl
  · rw [hlocking (.inr (.inr h)), State.lockSample_lift (hhold.trans hfree) (hstate.trans h),
      State.liftSample_eq, hu]
    rfl

/-- Settles O42: the expiry by its mark at the head of the list, the capture as the oldest in flight,
the decision and the end by their equations. -/
theorem liftsAreDecided : Obligations.LiftsAreDecided := by
  refine ⟨⟨fun i s due rest disp hp hm hd hdisp => ?_,
    fun x s u before after hp hd hs hb hu => ?_⟩,
    fun residual s lock h => State.decideLift_eq h residual, State.endLockOff_eq⟩
  · rw [hdisp]
    exact (exec_command_due hp hm hd).trans (congrArg Host.Outcome.next (State.stressSeat_eq _))
  · rw [exec_liftOffCapture hp hd hs hb, State.stressCapture_eq, hu]
    rfl

end Sys2Proof.Proofs
end

section
/-! SUPPORT. The journal array as it grows: its blank areas, and that every programming, whole or cut
short, falls on blank bytes. -/

namespace Sys2Proof.Machine

/-! ## Blank areas (R168) -/

/-- Every byte from one offset up to another is blank. -/
def Memory.BlankIn (m : Memory) (lo hi : Nat) : Prop := ∀ x, lo ≤ x → x < hi → m.read x = 0

/-- A canonical array that still holds every byte programmed in another one (R168). -/
structure Memory.Grown (m n : Memory) : Prop where
  wf : n.wf = true
  once : ∀ x, m.read x ≠ 0 → n.read x = m.read x

theorem Memory.Grown.refl {m : Memory} (h : m.wf = true) : m.Grown m := ⟨h, fun _ _ => rfl⟩

theorem Memory.Grown.trans {m n k : Memory} (h : m.Grown n) (g : n.Grown k) : m.Grown k :=
  ⟨g.wf, fun x hx => (g.once x ((h.once x hx).symm ▸ hx)).trans (h.once x hx)⟩

/-- A byte that does not read blank is listed. -/
theorem Memory.mem_of_read {m : Memory} {a : Nat} (h : m.read a ≠ 0) : (a, m.read a) ∈ m := by
  induction m with
  | nil => exact absurd rfl h
  | cons c rest ih =>
    obtain ⟨b, v⟩ := c
    by_cases hb : b = a
    · simp [Memory.read, hb]
    · simp only [Memory.read, if_neg hb] at h ⊢
      exact List.mem_cons_of_mem _ (ih h)

/-- A byte listed in a canonical array does not read blank. -/
theorem Memory.read_of_mem {m : Memory} {lo : Nat} (hw : m.wfFrom lo = true) {c : Host.Cell}
    (hc : c ∈ m) : m.read c.1 ≠ 0 := by
  induction m generalizing lo with
  | nil => cases hc
  | cons d rest ih =>
    obtain ⟨b, v⟩ := d
    simp only [Memory.wfFrom, Bool.and_eq_true, decide_eq_true_eq, bne_iff_ne] at hw
    obtain ⟨⟨-, hv⟩, hrest⟩ := hw
    by_cases hb : b = c.1
    · simpa [Memory.read, hb] using hv
    · rw [Memory.read, if_neg hb]
      rcases List.mem_cons.mp hc with rfl | hc
      · exact absurd rfl hb
      · exact ih hrest hc

/-- An area with no listed byte is blank. -/
theorem Memory.blankIn_of_mem {m : Memory} {lo hi : Nat}
    (h : ∀ c ∈ m, ¬ (lo ≤ c.1 ∧ c.1 < hi)) : m.BlankIn lo hi := fun x hlo hhi =>
  by_contra fun hx => h (x, m.read x) (Memory.mem_of_read hx) ⟨hlo, hhi⟩

/-- Bytes programmed on blank ones leave every programmed byte as it was (R168, R171). -/
theorem Memory.grown_writeBytes {m : Memory} (hw : m.wf = true) {a : Nat} {bs : List Byte}
    (ha : a + bs.length ≤ Config.arraySize) (hb : m.BlankIn a (a + bs.length)) :
    m.Grown (m.writeBytes a bs) where
  wf := Memory.wf_writeBytes hw bs ha
  once x hx := by
    rw [Memory.read_writeBytes hw bs ha, if_neg fun h => hx (hb x h.1 h.2)]

/-- A programming leaves the areas beside it blank. -/
theorem Memory.blankIn_writeBytes {m : Memory} (hw : m.wf = true) {a lo hi : Nat} {bs : List Byte}
    (ha : a + bs.length ≤ Config.arraySize) (hb : m.BlankIn lo hi)
    (hout : hi ≤ a ∨ a + bs.length ≤ lo) : (m.writeBytes a bs).BlankIn lo hi := fun x hlo hhi => by
  rw [Memory.read_writeBytes hw bs ha, if_neg (by omega)]
  exact hb x hlo hhi

/-! ## The free area (R168, R170) -/

@[simp] theorem left_length (bs : List Byte) (readback : Option (List Byte)) :
    (left bs readback).length = bs.length := fitBytes_length _ _

theorem le_align16 (n : Nat) : n ≤ align16 n := by unfold align16; omega

theorem align16_lt (n : Nat) : align16 n < n + 16 := by unfold align16; omega

theorem align16_mod (n : Nat) : align16 n % 16 = 0 := Nat.mul_mod_left _ _

theorem Journal.lowestEntry_le (j : Journal) : j.lowestEntry ≤ Config.arraySize := by
  unfold Journal.lowestEntry entryOffset Config.arraySize
  split <;> omega

/-- The next index entry ends where the lowest one begins (R168). -/
theorem Journal.entryOffset_add {j : Journal} (h : 8 ≤ j.lowestEntry) :
    entryOffset j.count + 8 = j.lowestEntry := by
  unfold Journal.lowestEntry entryOffset Config.arraySize at *
  split at h
  next hz => rw [if_pos hz]; omega
  next hz => rw [if_neg hz]; omega

/-- A canonical array, blank from an offset up to the lowest index entry. -/
structure Journal.FreeFrom (j : Journal) (lo : Nat) : Prop where
  wf : j.array.wf = true
  blank : j.array.BlankIn lo j.lowestEntry

/-- What the invariant says of a canonical journal: no append is in flight but in APPENDING, and while
the journal may append its free area is blank. -/
theorem Journal.wellKept_iff (j : Journal) : j.wellKept = true ↔
    j.array.wf = true ∧ (j.inFlight = none ∨ j.state = .appending) ∧
      (j.state = .ready ∨ j.state = .appending → j.FreeFrom j.appendPoint) := by
  have hfree (hw : j.array.wf = true) : j.freeBlank = true ↔ j.FreeFrom j.appendPoint := by
    simp only [Journal.freeBlank, List.all_eq_true, Bool.or_eq_true, decide_eq_true_eq]
    refine ⟨fun h => ⟨hw, Memory.blankIn_of_mem fun c hc => by have := h c hc; omega⟩,
      fun h c hc => ?_⟩
    by_contra hn
    exact Memory.read_of_mem hw hc (h.blank c.1 (by omega) (by omega))
  simp only [Journal.wellKept, Bool.and_eq_true, Bool.or_eq_true, beq_iff_eq, bne_iff_ne,
    Option.isNone_iff_eq_none, and_assoc]
  refine and_congr_right fun hw => and_congr_right fun _ => ?_
  rw [hfree hw]
  tauto

/-! ## Programming (R171, R172) -/

/-- A record that fits goes on blank bytes, and leaves the rest of the free area blank. -/
theorem Journal.putRecord_grown {j : Journal} {record : List Byte}
    (h : j.FreeFrom j.appendPoint) (hfit : j.appendPoint + record.length ≤ j.lowestEntry)
    (readback : Option (List Byte)) :
    j.array.Grown (j.putRecord record readback).array ∧
      (j.putRecord record readback).FreeFrom (j.appendPoint + record.length) := by
  have hsize : j.appendPoint + (left record readback).length ≤ Config.arraySize := by
    have := j.lowestEntry_le
    rw [left_length]
    omega
  have hgrown := Memory.grown_writeBytes h.wf hsize fun x hlo hhi =>
    h.blank x hlo (by rw [left_length] at hhi; omega)
  exact ⟨hgrown, hgrown.wf, Memory.blankIn_writeBytes h.wf hsize
    (fun x hlo hhi => h.blank x (by omega) hhi) (.inr (by rw [left_length]))⟩

/-- An index entry goes on blank bytes; counted, it leaves the free area that it shortens blank. -/
theorem Journal.putEntry_grown {j : Journal} {range : List Byte}
    (h : j.FreeFrom (j.appendPoint + range.length))
    (hfit : j.appendPoint + range.length + 8 ≤ j.lowestEntry) (kind : EntryKind)
    (readback : Option (List Byte)) :
    j.array.Grown (j.putEntry kind range readback).1.array ∧
      ((j.putEntry kind range readback).2 = true →
        (j.putEntry kind range readback).1.FreeFrom
          (j.putEntry kind range readback).1.appendPoint) := by
  have hoff : entryOffset j.count + 8 = j.lowestEntry := Journal.entryOffset_add (by omega)
  have hsize := j.lowestEntry_le
  have hlen : (left (entryBytes kind j.appendPoint range) readback).length = 8 := left_length _ _
  generalize hbs : left (entryBytes kind j.appendPoint range) readback = bs at hlen
  have hgrown : j.array.Grown (j.array.writeBytes (entryOffset j.count) bs) :=
    Memory.grown_writeBytes h.wf (by omega) fun x hlo hhi => h.blank x (by omega) (by omega)
  unfold Journal.putEntry
  simp only [hbs]
  split
  · refine ⟨hgrown, fun _ => ⟨hgrown.wf, Memory.blankIn_writeBytes h.wf (by omega)
      (fun x hlo hhi => ?_) (.inl (Nat.le_refl _))⟩⟩
    have hup : j.appendPoint + range.length ≤ x := Nat.le_trans (le_align16 _) hlo
    have hdown : x < entryOffset j.count := hhi
    exact h.blank x hup (by rw [← hoff]; exact Nat.lt_add_right 8 hdown)
  · exact ⟨hgrown, fun hc => by cases hc⟩

/-! ## Appends, whole or cut short (R171, R172; log entry 9) -/

theorem Journal.fits_le {j : Journal} {record : List Byte} (h : j.fits record = true) :
    j.appendPoint + record.length + 8 ≤ j.lowestEntry := by
  have := Journal.fits_iff.mp h
  unfold Journal.room at this
  omega

section
variable {j : Journal} (hfree : j.FreeFrom j.appendPoint)
include hfree

/-- A record and its entry, where both fit: the entry may be another one than the record's own, as
long as its range has the record's length. -/
theorem Journal.putBoth_grown {record range : List Byte} (hfit : j.fits record = true)
    (hlen : range.length = record.length) (kind : EntryKind) (rb rb' : Option (List Byte)) :
    j.array.Grown ((j.putRecord record rb).putEntry kind range rb').1.array ∧
      (((j.putRecord record rb).putEntry kind range rb').2 = true →
        ((j.putRecord record rb).putEntry kind range rb').1.FreeFrom
          ((j.putRecord record rb).putEntry kind range rb').1.appendPoint) := by
  have hle := Journal.fits_le hfit
  obtain ⟨hgrown, hrest⟩ :=
    Journal.putRecord_grown (record := record) hfree (by omega) rb
  rw [← hlen] at hrest hle
  obtain ⟨hgrown', hrest'⟩ := Journal.putEntry_grown (j := j.putRecord record rb) hrest hle kind rb'
  exact ⟨hgrown.trans hgrown', hrest'⟩

theorem Journal.retry_grown {a : Append} (hfit : j.fits a.record = true) (run : AppendRun) :
    j.array.Grown (j.retry a run).journal.array ∧
      ((j.retry a run).index.isSome = true →
        (j.retry a run).journal.FreeFrom (j.retry a run).journal.appendPoint) := by
  have hle := Journal.fits_le hfit
  unfold Journal.retry
  simp only []
  split
  · exact ⟨(Journal.putRecord_grown (record := a.record) hfree (by omega) _).1,
      fun h => by cases h⟩
  · obtain ⟨hgrown, hrest⟩ :=
      Journal.putBoth_grown hfree hfit rfl a.kind run.retryRecord run.retryEntry
    refine ⟨hgrown, fun h => hrest ?_⟩
    by_contra hn
    simp [hn] at h

/-- An append that ends with an entry leaves a blank free area. -/
theorem Journal.append_grown (a : Append) (run : AppendRun) :
    j.array.Grown (j.append a run).journal.array ∧
      ((j.append a run).index.isSome = true →
        (j.append a run).journal.FreeFrom (j.append a run).journal.appendPoint) := by
  unfold Journal.append
  simp only []
  split
  · exact ⟨.refl hfree.wf, fun h => by cases h⟩
  next hfit =>
    have hfit : j.fits a.record = true := by simpa using hfit
    split
    · obtain ⟨hgrown, hrest⟩ := Journal.putBoth_grown hfree hfit rfl a.kind run.record run.entry
      refine ⟨hgrown, fun h => hrest ?_⟩
      by_contra hn
      simp [hn] at h
    · obtain ⟨hgrown, hrest⟩ := Journal.putBoth_grown hfree hfit
        (left_length a.record run.record) .spoiled run.record run.entry
      split
      next hretry =>
        rw [Bool.and_eq_true] at hretry
        obtain ⟨hgrown', hrest'⟩ := Journal.retry_grown (hrest hretry.1) hretry.2 run
        exact ⟨hgrown.trans hgrown', hrest'⟩
      next => exact ⟨hgrown, fun h => by cases h⟩

/-- However many of its programmings an append has made, each fell on blank bytes. -/
theorem Journal.cutAppend_grown (phases : Nat) (a : Append) (run : AppendRun) :
    j.array.Grown (j.cutAppend phases a run) := by
  unfold Journal.cutAppend
  simp only []
  split
  · exact .refl hfree.wf
  next hfit =>
    have hfit : j.fits a.record = true := by simpa using hfit
    have hle := Journal.fits_le hfit
    have hboth (kind : EntryKind) := Journal.putBoth_grown hfree hfit
      (left_length a.record run.record) kind run.record run.entry
    generalize (if decide (left a.record run.record = a.record) = true then a.kind
      else EntryKind.spoiled) = kind
    split
    · exact .refl hfree.wf
    · exact (Journal.putRecord_grown hfree (by omega) _).1
    · exact (hboth kind).1
    · split
      next hretry =>
        simp only [Bool.and_eq_true] at hretry
        have hnext := (hboth kind).2 hretry.1.2
        have hle' := Journal.fits_le hretry.2
        exact (hboth kind).1.trans (Journal.putRecord_grown hnext (by omega) _).1
      next => exact (hboth kind).1
    · exact (Journal.append_grown hfree a run).1

end

end Sys2Proof.Machine
end

section
/-! SUPPORT. The start-up scan: what it counts and finds, and what it makes of the free area. -/

namespace Sys2Proof.Machine

/-! ## Counting (R174 step 1) -/

/-- The search counts marked slots, and ends at an unmarked one or at its bound. -/
theorem Memory.countEntries_spec (m : Memory) (n k : Nat) :
    (∀ i, k ≤ i → i < m.countEntries n k → m.read (entryOffset i) = 0xA5) ∧
      m.countEntries n k ≤ k + n ∧
      (m.countEntries n k < k + n → m.read (entryOffset (m.countEntries n k)) ≠ 0xA5) := by
  induction n generalizing k with
  | zero => exact ⟨fun i hk hi => absurd hi (Nat.not_lt.mpr hk), Nat.le_refl _, by
      simp [Memory.countEntries]⟩
  | succ n ih =>
    unfold Memory.countEntries
    split
    next hmark =>
      obtain ⟨hall, hle, hend⟩ := ih (k + 1)
      refine ⟨fun i hk hi => ?_, by omega, fun hlt => hend (by omega)⟩
      rcases Nat.eq_or_lt_of_le hk with rfl | hk
      · exact hmark
      · exact hall i hk hi
    next hmark => exact ⟨fun i hk hi => absurd hi (Nat.not_lt.mpr hk), by omega, fun _ => hmark⟩

theorem Memory.entryCount_le (m : Memory) : m.entryCount ≤ 32764 := by
  have := (m.countEntries_spec slotLimit 0).2.1
  unfold Memory.entryCount slotLimit at *
  omega

/-! ## The append point (R174 step 2) -/

theorem Memory.le_scanPoint (m : Memory) {n k : Nat} (h : k < n) :
    (m.entry k).start + (m.entry k).length ≤ m.scanPoint n := by
  induction n with
  | zero => cases h
  | succ n ih =>
    rw [Memory.scanPoint]
    rcases Nat.lt_succ_iff_lt_or_eq.mp h with hk | rfl
    · exact Nat.le_trans (ih hk) (Nat.le_max_left _ _)
    · exact Nat.le_trans (le_align16 _) (Nat.le_max_right _ _)

theorem Memory.le_scanPoint_start (m : Memory) (n : Nat) : 32 ≤ m.scanPoint n := by
  induction n with
  | zero => exact Nat.le_refl _
  | succ n ih => exact Nat.le_trans ih (Nat.le_max_left _ _)

/-- The append point is 32, or the aligned end of one of the counted ranges. -/
theorem Memory.scanPoint_eq (m : Memory) (n : Nat) : m.scanPoint n = 32 ∨
    ∃ k, k < n ∧ m.scanPoint n = align16 ((m.entry k).start + (m.entry k).length) := by
  induction n with
  | zero => exact .inl rfl
  | succ n ih =>
    rw [Memory.scanPoint]
    rcases Nat.le_total (align16 ((m.entry n).start + (m.entry n).length)) (m.scanPoint n) with
      hle | hle
    · rw [Nat.max_eq_left hle]
      exact ih.imp_right fun ⟨k, hk, he⟩ => ⟨k, Nat.lt_succ_of_lt hk, he⟩
    · rw [Nat.max_eq_right hle]
      exact .inr ⟨n, Nat.lt_succ_self n, rfl⟩

theorem Memory.scanPoint_mod (m : Memory) (n : Nat) : m.scanPoint n % 16 = 0 := by
  rcases m.scanPoint_eq n with h | ⟨k, -, h⟩ <;> rw [h]
  exact align16_mod _

/-! ## The last entry that a selector accepts (R174 steps 4, 5) -/

section
variable {α : Type} {m : Memory} {f : Entry → Option α} {n : Nat}

theorem Memory.lastEntry_eq_none :
    m.lastEntry f n = none ↔ ∀ k, k < n → f (m.entry k) = none := by
  induction n with
  | zero => simp [Memory.lastEntry]
  | succ n ih =>
    rw [Memory.lastEntry, Nat.forall_lt_succ_right]
    split
    next x hx => simp [hx]
    next hx => simp [hx, ih]

theorem Memory.lastEntry_eq_some {k : Nat} {x : α} : m.lastEntry f n = some (k, x) ↔
    k < n ∧ f (m.entry k) = some x ∧ ∀ i, k < i → i < n → f (m.entry i) = none := by
  induction n with
  | zero => simp [Memory.lastEntry]
  | succ n ih =>
    rw [Memory.lastEntry]
    split
    next y hy =>
      rw [Option.some.injEq, Prod.mk.injEq]
      constructor
      · rintro ⟨rfl, rfl⟩
        exact ⟨Nat.lt_succ_self n, hy, fun i hi hn => by omega⟩
      · rintro ⟨hk, hx, hnone⟩
        rcases Nat.lt_succ_iff_lt_or_eq.mp hk with hk | rfl
        · rw [hnone n hk (Nat.lt_succ_self n)] at hy
          cases hy
        · exact ⟨rfl, Option.some.inj (hy.symm.trans hx)⟩
    next hy =>
      rw [ih]
      constructor
      · rintro ⟨hk, hx, hnone⟩
        refine ⟨Nat.lt_succ_of_lt hk, hx, fun i hi hn => ?_⟩
        rcases Nat.lt_succ_iff_lt_or_eq.mp hn with hn | rfl
        · exact hnone i hi hn
        · exact hy
      · rintro ⟨hk, hx, hnone⟩
        refine ⟨?_, hx, fun i hi hn => hnone i hi (Nat.lt_succ_of_lt hn)⟩
        rcases Nat.lt_succ_iff_lt_or_eq.mp hk with hk | rfl
        · exact hk
        · rw [hy] at hx
          cases hx

end

theorem Memory.lastCertificate_eq_some {m : Memory} {n k : Nat} :
    m.lastCertificate n = some k ↔ k < n ∧ (m.entry k).kind = EntryKind.certificate.code ∧
      ∀ i, k < i → i < n → (m.entry i).kind ≠ EntryKind.certificate.code := by
  have hfst : m.lastCertificate n = some k ↔ m.lastEntry
      (fun e => if e.kind = EntryKind.certificate.code then some () else none) n =
        some (k, ()) := by
    simp only [Memory.lastCertificate, Option.map_eq_some_iff, Prod.exists, exists_and_right,
      exists_eq_right]
    exact ⟨fun ⟨_, h⟩ => h, fun h => ⟨(), h⟩⟩
  rw [hfst, Memory.lastEntry_eq_some]
  simp

/-! ## The last block of the free area that is not blank (R174 step 3) -/

/-- The last block's end is 0 or that of a listed byte's block, and no listed byte's block ends
later. -/
theorem Memory.lastBlockEnd_spec (m : Memory) (lo hi : Nat) :
    (m.lastBlockEnd lo hi = 0 ∨
      ∃ c ∈ m, lo ≤ c.1 ∧ c.1 < hi ∧ m.lastBlockEnd lo hi = (c.1 / 16 + 1) * 16) ∧
    ∀ c ∈ m, lo ≤ c.1 → c.1 < hi → (c.1 / 16 + 1) * 16 ≤ m.lastBlockEnd lo hi := by
  have hmax : (0 :: (m.filter fun c => lo ≤ c.1 && c.1 < hi).map fun c => (c.1 / 16 + 1) * 16).max?
      = some (m.lastBlockEnd lo hi) := List.max?_cons' ..
  obtain ⟨hmem, hle⟩ := List.max?_eq_some_iff.mp hmax
  simp only [List.mem_cons, List.mem_map, List.mem_filter, Bool.and_eq_true,
    decide_eq_true_eq] at hmem hle
  refine ⟨hmem.imp_right ?_, fun c hc hlo hhi => hle _ (.inr ⟨c, ⟨hc, hlo, hhi⟩, rfl⟩)⟩
  rintro ⟨c, ⟨hc, hlo, hhi⟩, he⟩
  exact ⟨c, hc, hlo, hhi, he.symm⟩

/-- A blank area has no last block. -/
theorem Memory.lastBlockEnd_blank {m : Memory} {lo hi : Nat}
    (h : ∀ c ∈ m, ¬ (lo ≤ c.1 ∧ c.1 < hi)) : m.lastBlockEnd lo hi = 0 :=
  (m.lastBlockEnd_spec lo hi).1.resolve_right fun ⟨c, hc, hlo, hhi, _⟩ => h c hc ⟨hlo, hhi⟩

/-- The last listed byte's block is the last one. -/
theorem Memory.lastBlockEnd_last {m : Memory} {lo hi : Nat} {c : Host.Cell} (hc : c ∈ m)
    (hlo : lo ≤ c.1) (hhi : c.1 < hi) (hlast : ∀ d ∈ m, d.1 < hi → d.1 ≤ c.1) :
    m.lastBlockEnd lo hi = (c.1 / 16 + 1) * 16 := by
  obtain ⟨hend, hle⟩ := m.lastBlockEnd_spec lo hi
  have hge := hle c hc hlo hhi
  rcases hend with hend | ⟨d, hd, -, hdhi, hend⟩
  · omega
  · have := hlast d hd hdhi
    omega

/-- From the last block's end on the area is blank; without one it all is. -/
theorem Memory.blankIn_lastBlockEnd (m : Memory) (lo hi : Nat) :
    m.BlankIn (if m.lastBlockEnd lo hi = 0 then lo else m.lastBlockEnd lo hi) hi := by
  obtain ⟨hend, hle⟩ := m.lastBlockEnd_spec lo hi
  refine Memory.blankIn_of_mem fun c hc ⟨hstart, hhi⟩ => ?_
  split at hstart
  next hzero => have := hle c hc hstart hhi; omega
  next hne =>
    rcases hend with hend | ⟨d, -, hd, -, hend⟩
    · exact hne hend
    · have := hle c hc (by omega) hhi
      omega

/-- A last block ends above the area's start, at a multiple of 16. -/
theorem Memory.lastBlockEnd_pos {m : Memory} {lo hi : Nat} (h : m.lastBlockEnd lo hi ≠ 0) :
    lo < m.lastBlockEnd lo hi ∧ align16 (m.lastBlockEnd lo hi) = m.lastBlockEnd lo hi := by
  rcases (m.lastBlockEnd_spec lo hi).1 with hend | ⟨c, -, hlo, -, hend⟩
  · exact absurd hend h
  · unfold align16
    omega

/-! ## The scan by cases (R174) -/

section
variable {j : Journal} {readback : Option (List Byte)}

/-- A first uncounted slot that is not blank ends the scan in FAULT. -/
theorem Journal.scan_notBlank (h : j.array.slot j.array.entryCount ≠ List.replicate 8 0) :
    j.scan readback = (j.scanned.faulty, false) := if_pos h

theorem Journal.scan_blank (h : j.array.slot j.array.entryCount = List.replicate 8 0) :
    j.scan readback = j.scanned.spoilFree readback := if_neg (not_not.mpr h)

theorem Journal.spoilFree_blank (h : j.array.lastBlockEnd j.appendPoint (entryOffset j.count) = 0) :
    j.spoilFree readback = (j.sound, false) := by
  rw [Journal.spoilFree, h]
  rfl

variable {stop : Nat} (hstop : j.array.lastBlockEnd j.appendPoint (entryOffset j.count) = stop)
  (hne : stop ≠ 0)
include hstop hne

theorem Journal.spoilFree_over (h : entryOffset j.count < stop) :
    j.spoilFree readback = (j.faulty, false) := by
  simp only [Journal.spoilFree, hstop, if_neg hne, if_pos h]

/-- The range of the SPOILED entry runs up to the last block's end. -/
theorem Journal.spoilFree_fit (h : stop ≤ entryOffset j.count) :
    j.spoilFree readback =
      let r := j.putEntry .spoiled (j.array.readBytes j.appendPoint (stop - j.appendPoint)) readback
      if r.2 then (r.1.sound, true) else (r.1.faulty, false) := by
  simp only [Journal.spoilFree, hstop, if_neg hne, if_neg (Nat.not_lt.mpr h)]

end

/-! ## The header (R168) -/

/-- Where the header is right, the scan goes on with it. -/
theorem Journal.startScan_right {run : ScanRun} {j : Journal} {h : Header}
    (hc : j.checkHeader run.header = ({ j with header := h }, true)) :
    j.startScan run =
      let r := Journal.scan run.spoiledEntry { j with header := h }
      (r.1, r.2 && r.1.room < Config.lowRoom) := by
  simp only [Journal.startScan, hc, if_true]

/-- A wrong header ends the scan in FAULT. -/
theorem Journal.startScan_wrong {run : ScanRun} {j t : Journal}
    (hc : j.checkHeader run.header = (t, false)) : j.startScan run =
      ({ t with state := .fault, count := 0, appendPoint := 32, lastCert := none }, false) := by
  simp only [Journal.startScan, hc, Bool.false_eq_true, if_false]

end Sys2Proof.Machine
end

section
/-! SUPPORT. The journal's invariant: what the scan leaves, and that every command keeps the free area
blank and every programmed byte as it is. -/

namespace Sys2Proof.Machine

/-! ## The scan on the array (R174) -/

theorem Memory.readBytes_eq_blank {m : Memory} {a n : Nat} :
    m.readBytes a n = List.replicate n 0 ↔ m.BlankIn a (a + n) := by
  induction n generalizing a with
  | zero => exact ⟨fun _ x hlo hhi => absurd hhi (Nat.not_lt.mpr hlo), fun _ => rfl⟩
  | succ n ih =>
    rw [Memory.readBytes, List.replicate_succ, List.cons.injEq, ih]
    constructor
    · rintro ⟨hfirst, hrest⟩ x hlo hhi
      rcases Nat.eq_or_lt_of_le hlo with rfl | hlo
      · exact hfirst
      · exact hrest x hlo (by omega)
    · exact fun h => ⟨h a (Nat.le_refl a) (by omega), fun x hlo hhi => h x (by omega) (by omega)⟩

/-- The slot of the first uncounted entry ends where the lowest counted one begins. -/
theorem Journal.scanned_lowestEntry (j : Journal) :
    entryOffset j.scanned.count + 8 = j.scanned.lowestEntry := by
  have hcount : j.scanned.count ≤ 32764 := j.array.entryCount_le
  refine Journal.entryOffset_add ?_
  unfold Journal.lowestEntry entryOffset Config.arraySize
  split <;> omega

theorem Journal.spoilFree_grown {j : Journal} (hw : j.array.wf = true)
    (hslot : j.array.BlankIn (entryOffset j.count) (entryOffset j.count + 8))
    (hoff : entryOffset j.count + 8 = j.lowestEntry) (readback : Option (List Byte)) :
    j.array.Grown (j.spoilFree readback).1.array ∧
      ((j.spoilFree readback).1.state = .ready →
        (j.spoilFree readback).1.FreeFrom (j.spoilFree readback).1.appendPoint) := by
  have hblank := j.array.blankIn_lastBlockEnd j.appendPoint (entryOffset j.count)
  have hfree : j.FreeFrom
      (if j.array.lastBlockEnd j.appendPoint (entryOffset j.count) = 0 then j.appendPoint
        else j.array.lastBlockEnd j.appendPoint (entryOffset j.count)) := by
    refine ⟨hw, fun x hlo hhi => ?_⟩
    rcases Nat.lt_or_ge x (entryOffset j.count) with hx | hx
    · exact hblank x hlo hx
    · exact hslot x hx (hoff ▸ hhi)
  generalize hstop : j.array.lastBlockEnd j.appendPoint (entryOffset j.count) = stop at hfree
  by_cases hne : stop = 0
  · rw [if_pos hne] at hfree
    rw [Journal.spoilFree_blank (hstop.trans hne)]
    exact ⟨.refl hw, fun _ => ⟨hw, hfree.blank⟩⟩
  · rw [if_neg hne] at hfree
    rcases Nat.lt_or_ge (entryOffset j.count) stop with hover | hfit
    · rw [Journal.spoilFree_over hstop hne hover]
      exact ⟨.refl hw, fun h => by cases h⟩
    · have hlt : j.appendPoint < stop := hstop ▸ (Memory.lastBlockEnd_pos (hstop.trans_ne hne)).1
      have hlen : j.appendPoint +
          (j.array.readBytes j.appendPoint (stop - j.appendPoint)).length = stop := by
        rw [Memory.readBytes_length]
        omega
      obtain ⟨hgrown, hrest⟩ := Journal.putEntry_grown (j := j) (by rwa [hlen])
        (by rw [hlen]; omega) .spoiled readback
      rw [Journal.spoilFree_fit hstop hne hfit]
      dsimp only
      split
      next hput => exact ⟨hgrown, fun _ => ⟨hgrown.wf, (hrest hput).blank⟩⟩
      next => exact ⟨hgrown, fun h => by cases h⟩

/-- The scan programs blank bytes only, and ends READY only over a blank free area. -/
theorem Journal.scan_grown {j : Journal} (hw : j.array.wf = true) (readback : Option (List Byte)) :
    j.array.Grown (j.scan readback).1.array ∧
      ((j.scan readback).1.state = .ready →
        (j.scan readback).1.FreeFrom (j.scan readback).1.appendPoint) := by
  by_cases hslot : j.array.slot j.array.entryCount = List.replicate 8 0
  · rw [Journal.scan_blank hslot]
    exact Journal.spoilFree_grown (j := j.scanned) hw (Memory.readBytes_eq_blank.mp hslot)
      j.scanned_lowestEntry readback
  · rw [Journal.scan_notBlank hslot]
    exact ⟨.refl hw, fun h => by cases h⟩

/-- A scan leaves no other state than READY and FAULT, and touches no append in flight. -/
theorem Journal.scan_state (j : Journal) (readback : Option (List Byte)) :
    (j.scan readback).1.state ≠ .appending ∧ (j.scan readback).1.inFlight = j.inFlight := by
  have hput (range : List Byte) (t : Journal) :
      (t.putEntry .spoiled range readback).1.inFlight = t.inFlight := by
    unfold Journal.putEntry
    simp only []
    split <;> rfl
  unfold Journal.scan
  split
  · exact ⟨JournalState.noConfusion, rfl⟩
  · unfold Journal.spoilFree
    dsimp only
    split
    · exact ⟨JournalState.noConfusion, rfl⟩
    · split
      · exact ⟨JournalState.noConfusion, rfl⟩
      · split <;> exact ⟨JournalState.noConfusion, hput _ _⟩

/-! ## The invariant (R168, R170) -/

/-- A journal that keeps its invariant, and every byte that an array holds programmed. -/
def Journal.KeptSince (m : Memory) (j : Journal) : Prop := j.wellKept = true ∧ m.Grown j.array

/-- A journal that does not append keeps its invariant where READY means a blank free area. -/
theorem Journal.wellKept_of_idle {j : Journal} (hw : j.array.wf = true) (hf : j.inFlight = none)
    (hs : j.state ≠ .appending) (hready : j.state = .ready → j.FreeFrom j.appendPoint) :
    j.wellKept = true :=
  j.wellKept_iff.mpr ⟨hw, .inl hf, fun h => hready (h.resolve_right hs)⟩

/-- An append's end is READY with an entry and FAULT without one (R171, R172). -/
theorem AppendEnd.settle_state (x : AppendEnd) :
    x.settle.state ≠ .appending ∧ (x.settle.state = .ready → x.index.isSome = true) := by
  unfold AppendEnd.settle
  cases x.index <;> simp

theorem Journal.wellKept_ask {j : Journal} (h : j.wellKept = true) (kind : EntryKind)
    (record : List Byte) (asker : Asker) : (j.ask kind record asker).wellKept = true := by
  by_cases hs : j.state = .ready
  · obtain ⟨hw, -, hfree⟩ := j.wellKept_iff.mp h
    rw [Journal.ask_ready hs, Journal.wellKept_iff]
    exact ⟨hw, .inr rfl, fun _ => ⟨hw, (hfree (.inl hs)).blank⟩⟩
  · rwa [Journal.ask, if_neg hs]

theorem Journal.ask_array (j : Journal) (kind : EntryKind) (record : List Byte) (asker : Asker) :
    (j.ask kind record asker).array = j.array := by
  unfold Journal.ask
  split <;> rfl

/-- With an append in flight the free area is blank. -/
theorem Journal.freeFrom_of_inFlight {j : Journal} (h : j.wellKept = true) {a : Append}
    (ha : j.inFlight = some a) : j.FreeFrom j.appendPoint := by
  obtain ⟨-, hflight, hfree⟩ := j.wellKept_iff.mp h
  refine hfree (.inr (hflight.resolve_left ?_))
  rw [ha]
  exact Option.some_ne_none a

section
variable {m : Memory} {j : Journal} (h : j.KeptSince m)
include h

theorem Journal.keptSince_settle {a : Append} (ha : j.inFlight = some a) (run : AppendRun) :
    (j.append a run).settle.KeptSince m := by
  obtain ⟨hgrown, hrest⟩ := Journal.append_grown (Journal.freeFrom_of_inFlight h.1 ha) a run
  obtain ⟨hstate, hready⟩ := (j.append a run).settle_state
  exact ⟨Journal.wellKept_of_idle hgrown.wf rfl hstate fun hs =>
    ⟨hgrown.wf, (hrest (hready hs)).blank⟩, h.2.trans hgrown⟩

/-- The array that a scan's or an append's programmings leave when they are cut short (log entry 9). -/
theorem Journal.cut_grown (phases : Nat) (run : AppendRun) :
    m.Grown (j.cut phases run).array := by
  obtain ⟨hk, hm⟩ := h
  have hw : j.array.wf = true := (j.wellKept_iff.mp hk).1
  have hheader : (j.checkHeader run.record).1.array = j.array := by
    rcases Journal.checkHeader_cases run.record j with ⟨-, hc⟩ | ⟨-, hc⟩ <;> rw [hc]
  unfold Journal.cut
  split
  next hs =>
    unfold Journal.cutScan
    simp only []
    split
    · exact hm
    · split
      · rwa [hheader]
      · have hscan := (Journal.scan_grown (j := (j.checkHeader run.record).1) (by rwa [hheader])
          run.entry).1
        rw [hheader] at hscan
        exact hm.trans hscan
  next a ha _ =>
    exact hm.trans (Journal.cutAppend_grown (Journal.freeFrom_of_inFlight hk ha) phases a run)
  next => exact hm

/-- A start-up's journal has its array alone to keep. -/
theorem Journal.keptSince_atStartUp (phases : Nat) (run : AppendRun) (header : Header) :
    (Journal.atStartUp (j.cut phases run).array header).KeptSince m := by
  have hgrown := Journal.cut_grown h phases run
  exact ⟨Journal.wellKept_of_idle hgrown.wf rfl JournalState.noConfusion JournalState.noConfusion,
    hgrown⟩

/-- A start-up's scan keeps the invariant, whatever its header and its SPOILED entry came to. -/
theorem Journal.keptSince_startScan (hs : j.state = .scanning) (run : ScanRun) :
    (j.startScan run).1.KeptSince m := by
  obtain ⟨hk, hm⟩ := h
  obtain ⟨hw, hflight, -⟩ := j.wellKept_iff.mp hk
  have hnone : j.inFlight = none := hflight.resolve_right (by rw [hs]; exact JournalState.noConfusion)
  obtain ⟨header, pass, hc⟩ : ∃ header pass,
      j.checkHeader run.header = ({ j with header := header }, pass) := by
    rcases Journal.checkHeader_cases run.header j with ⟨-, hc⟩ | ⟨-, hc⟩
    · exact ⟨_, _, hc⟩
    · exact ⟨j.header, _, hc⟩
  cases pass with
  | true =>
    obtain ⟨hgrown, hready⟩ :=
      Journal.scan_grown (j := { j with header := header }) hw run.spoiledEntry
    obtain ⟨hstate, hf⟩ := Journal.scan_state { j with header := header } run.spoiledEntry
    rw [Journal.startScan_right hc]
    exact ⟨Journal.wellKept_of_idle hgrown.wf (hf.trans hnone) hstate hready, hm.trans hgrown⟩
  | false =>
    rw [Journal.startScan_wrong hc]
    exact ⟨Journal.wellKept_of_idle hw hnone JournalState.noConfusion JournalState.noConfusion, hm⟩

end

/-! ## Every command -/

/-- A state whose journal keeps its invariant, and every byte that an array holds programmed. -/
def State.KeptSince (m : Memory) (s : State) : Prop := s.journal.KeptSince m

theorem State.acceptRelease_journal (e : Engine) (s : State) :
    (s.acceptRelease e).journal = s.journal := by
  unfold State.acceptRelease
  split <;> rfl

theorem keeps_keptSince (m : Memory) : Keeps (State.KeptSince m) where
  free {s t} h e := by
    have hj : t.journal = s.journal := congrArg Guarded.journal e
    rwa [State.KeptSince, hj]
  insertMark _ _ h := h
  dropMarks _ h := h
  headMark h _ := h
  duty _ _ _ h := h
  period _ _ h := h
  claim _ _ h _ _ := h
  release e h := by rwa [State.KeptSince, State.acceptRelease_journal]
  line _ h := h
  trip h _ := h
  clear h := h
  raise _ h := h
  port _ _ h _ := h
  records _ h _ := h
  found _ h _ _ := h
  slot _ h := h
  declare _ h _ _ _ := h
  withdraw h _ _ := h
  panel _ _ h _ := h
  ask kind record asker h :=
    ⟨Journal.wellKept_ask h.1 kind record asker, by rw [Journal.ask_array]; exact h.2⟩
  settle run h ha := Journal.keptSince_settle h ha run
  stage _ _ h _ := h
  profile _ _ _ h := h
  unstage h := h

/-- Every command keeps the journal's invariant and every programmed byte. -/
theorem exec_keptSince {m : Memory} (c : Instr) {s : State} (h : s.KeptSince m) :
    After (State.KeptSince m) (exec c s) := by
  have k := keeps_keptSince m
  have hdue : s.expireDue.KeptSince m := k.expireDue h
  refine k.exec_every h (fun cause pins phases run => ?_) (fun phases run => ?_) (fun run => ?_)
    (fun run => k.appended (fun hu _ => hu) run h) c
  · show After _ (onStartUp cause pins phases run s.expireDue)
    unfold onStartUp
    split
    · exact hdue
    · exact Journal.keptSince_atStartUp hdue _ run _
  · exact Keeps.powered (P := State.KeptSince m) hdue
      fun _ hu => Journal.keptSince_atStartUp hu phases run _
  · show After _ (onStartUpScanDone run s.expireDue)
    unfold onStartUpScanDone
    split
    · exact hdue
    next hn =>
      have hs : s.expireDue.journal.state = .scanning := by
        simp only [Bool.or_eq_true, bne_iff_ne, not_or, not_not] at hn
        exact hn.2
      have hscan : (s.expireDue.scanJournal run).KeptSince m := by
        rw [State.scanJournal_eq]
        exact Journal.keptSince_startScan hdue hs run
      exact k.fixUpSlot (k.fixUpRecords hscan)

end Sys2Proof.Machine

namespace Sys2Proof.Proofs

open Sys2Proof.Machine

/-- Settles O59: every programming, whole or cut short, falls on blank bytes, so every command keeps the
invariant and the bytes programmed before it. -/
theorem journalIsAppendOnly : Obligations.JournalIsAppendOnly := by
  intro s t hk hst
  have hs : s.KeptSince s.journal.array := ⟨hk, .refl (s.journal.wellKept_iff.mp hk).1⟩
  have ht : t.KeptSince s.journal.array := by
    cases hp : s.pending with
    | nil =>
      simp only [step, hp] at hst
      cases hst
      exact hs
    | cons c rest =>
      have hexec : After (State.KeptSince s.journal.array) (exec c { s with pending := rest }) :=
        exec_keptSince c hs
      rw [← step_cons hp, hst] at hexec
      exact hexec
  exact ⟨ht.1, ht.2.once⟩

end Sys2Proof.Proofs
end

section
/-! SUPPORT. The start-up scan in the whole: the settings found over the scan's own SPOILED entry, and
the header that a scan goes on with. -/

namespace Sys2Proof.Machine

/-! ## The array's bytes, in whatever order it lists them -/

/-- A byte programmed leaves the others. -/
theorem Memory.read_write_ne (m : Memory) {a b : Nat} (h : b ≠ a) (v : Byte) :
    (m.write a v).read b = m.read b := by
  induction m with
  | nil =>
    rw [Memory.write]
    split
    · rfl
    · simp only [Memory.read, if_neg h.symm]
  | cons c rest ih =>
    obtain ⟨x, w⟩ := c
    rw [Memory.write]
    split_ifs with h1 hv h2 hv
    · rfl
    · rw [Memory.read, if_neg h.symm]
    · rw [Memory.read, if_neg (h2 ▸ h.symm)]
    · rw [Memory.read, if_neg h.symm, Memory.read, if_neg (h2 ▸ h.symm)]
    · rw [Memory.read, ih, Memory.read]

/-- A byte programmed other than blank is read back. -/
theorem Memory.read_write_self (m : Memory) (a : Nat) {v : Byte} (hv : v ≠ 0) :
    (m.write a v).read a = v := by
  induction m with
  | nil => rw [Memory.write, if_neg hv, Memory.read, if_pos rfl]
  | cons c rest ih =>
    obtain ⟨x, w⟩ := c
    rw [Memory.write, if_neg hv, if_neg hv]
    split_ifs with h1 h2
    · rw [Memory.read, if_pos rfl]
    · rw [Memory.read, if_pos rfl]
    · rw [Memory.read, if_neg (Ne.symm h2), ih]

theorem Memory.read_writeBytes_out (m : Memory) {a b : Nat} {bs : List Byte}
    (h : b < a ∨ a + bs.length ≤ b) : (m.writeBytes a bs).read b = m.read b := by
  induction bs generalizing m a with
  | nil => rfl
  | cons v vs ih =>
    rw [List.length_cons] at h
    rw [Memory.writeBytes, ih _ (by omega), Memory.read_write_ne m (by omega)]

/-! ## The settings found over a SPOILED entry (R174 steps 3, 5) -/

/-- Arrays that agree on a slot hold the same entry. -/
theorem Memory.entry_congr {m m' : Memory} {k : Nat}
    (h : ∀ x, entryOffset k ≤ x → x < entryOffset k + 8 → m'.read x = m.read x) :
    m'.entry k = m.entry k := by
  have hbytes (n a : Nat) (ha : ∀ x, a ≤ x → x < a + n → m'.read x = m.read x) :
      m'.readBytes a n = m.readBytes a n := by
    induction n generalizing a with
    | zero => rfl
    | succ n ih =>
      rw [Memory.readBytes, Memory.readBytes, ha a (Nat.le_refl a) (by omega),
        ih (a + 1) fun x hlo hhi => ha x (by omega) (by omega)]
  have hslot : m'.slot k = m.slot k := hbytes 8 _ h
  rw [Memory.entry, hslot, Memory.entry]

/-- Journals that agree on a range find the same settings in it. -/
theorem Journal.settingsOf_congr {j j' : Journal} {e : Entry}
    (h : ∀ a, a < e.start + e.length → j'.byte a = j.byte a) :
    j'.settingsOf e = j.settingsOf e := by
  have hrange : j'.range e = j.range e :=
    List.map_congr_left fun a ha => h a (List.mem_range'_1.mp ha).2
  rw [Journal.settingsOf, hrange, Journal.settingsOf]

theorem Memory.lastEntry_congr {α : Type} {m m' : Memory} {f f' : Entry → Option α} {n : Nat}
    (h : ∀ k, k < n → f' (m'.entry k) = f (m.entry k)) : m'.lastEntry f' n = m.lastEntry f n := by
  induction n with
  | zero => rfl
  | succ n ih =>
    rw [Memory.lastEntry, h n (Nat.lt_succ_self n), ih fun k hk => h k (Nat.lt_succ_of_lt hk),
      Memory.lastEntry]

/-- A SPOILED entry programmed is read back as one. -/
theorem Memory.kind_spoiled (m : Memory) (n start : Nat) (range : List Byte) :
    ((m.writeBytes (entryOffset n) (entryBytes .spoiled start range)).entry n).kind =
      EntryKind.spoiled.code := by
  have hbytes : entryBytes .spoiled start range =
      0xA5 :: 3 :: (xorBytes range :: (enc16 (start / 16) ++ enc16 range.length ++ enc8 1)) := rfl
  have hread : (m.writeBytes (entryOffset n) (entryBytes .spoiled start range)).read
      (entryOffset n + 1) = 3 := by
    rw [hbytes, Memory.writeBytes, Memory.writeBytes,
      Memory.read_writeBytes_out _ (.inl (Nat.lt_succ_self _)),
      Memory.read_write_self _ _ (by decide)]
  exact congrArg BitVec.toNat hread

/-- The SPOILED entry of a scan holds no settings, and hides none of those found before. -/
theorem Journal.scanSettings_spoiled {j : Journal} {n : Nat} (hn : n ≤ 32764)
    (hpoint : j.array.scanPoint n ≤ entryOffset n) (start : Nat) (range : List Byte) :
    Journal.scanSettings { j with
      array := j.array.writeBytes (entryOffset n) (entryBytes .spoiled start range) } (n + 1) =
      j.scanSettings n := by
  have hkind := j.array.kind_spoiled n start range
  have hread (x : Nat) (hx : x < entryOffset n ∨ entryOffset n + 8 ≤ x) :
      (j.array.writeBytes (entryOffset n) (entryBytes .spoiled start range)).read x =
        j.array.read x := Memory.read_writeBytes_out _ (by rwa [entryBytes_length])
  generalize j.array.writeBytes (entryOffset n) (entryBytes .spoiled start range) = m
    at hkind hread ⊢
  have hnone : Journal.settingsOf { j with array := m } (m.entry n) = none := by
    rw [Journal.settingsOf, if_neg]
    rintro ⟨hset, -⟩
    rw [hkind] at hset
    cases hset
  have hlast : m.lastEntry (Journal.settingsOf { j with array := m }) n =
      j.array.lastEntry j.settingsOf n := by
    refine Memory.lastEntry_congr fun k hk => ?_
    rw [Memory.entry_congr fun x hlo hhi => hread x (by unfold entryOffset at *; omega)]
    refine Journal.settingsOf_congr fun a ha => ?_
    have hend := j.array.le_scanPoint hk
    simp only [Journal.byte, hread a (by omega)]
  simp only [Journal.scanSettings, Memory.lastEntry, hnone, hlast]

/-- An entry that is counted has been read back as programmed. -/
theorem Journal.putEntry_counted {kind : EntryKind} {range : List Byte}
    {readback : Option (List Byte)} {j : Journal} (h : (j.putEntry kind range readback).2 = true) :
    (j.putEntry kind range readback).1 = Journal.countEntry kind range.length
      { j with
        array := j.array.writeBytes (entryOffset j.count)
          (entryBytes kind j.appendPoint range) } := by
  unfold Journal.putEntry at h ⊢
  simp only [] at h ⊢
  split at h
  next hleft => rw [if_pos hleft, hleft]
  next => cases h

/-- A scan that ends READY takes the settings that the counted entries hold. -/
theorem Journal.foundSettings_scan {j : Journal} {readback : Option (List Byte)}
    (h : (j.scan readback).1.state = .ready) :
    (j.scan readback).1.foundSettings = j.scanned.scanSettings j.array.entryCount := by
  by_cases hslot : j.array.slot j.array.entryCount = List.replicate 8 0
  · rw [Journal.scan_blank hslot] at h ⊢
    generalize hstop : j.scanned.array.lastBlockEnd j.scanned.appendPoint
      (entryOffset j.scanned.count) = stop
    by_cases hne : stop = 0
    · rw [Journal.spoilFree_blank (hstop.trans hne)]
      rfl
    · rcases Nat.lt_or_ge (entryOffset j.scanned.count) stop with hover | hfit
      · rw [Journal.spoilFree_over hstop hne hover] at h
        cases h
      · have hlt : j.scanned.appendPoint < stop :=
          hstop ▸ (Memory.lastBlockEnd_pos (hstop.trans_ne hne)).1
        rw [Journal.spoilFree_fit hstop hne hfit] at h ⊢
        dsimp only at h ⊢
        split at h
        next hput =>
          rw [if_pos hput, Journal.putEntry_counted hput]
          exact Journal.scanSettings_spoiled (j := j.scanned) j.array.entryCount_le
            (Nat.le_trans (Nat.le_of_lt hlt) hfit) _ _
        next => cases h
  · rw [Journal.scan_notBlank hslot] at h
    cases h

/-- The settings of the last entry that holds any, or the defaults. -/
theorem Journal.scanSettings_eq {j : Journal} {n : Nat} {c : Settings}
    (h : (∃ k, k < n ∧ j.settingsOf (j.array.entry k) = some c ∧
        ∀ i, k < i → i < n → j.settingsOf (j.array.entry i) = none) ∨
      (c = .default ∧ ∀ k, k < n → j.settingsOf (j.array.entry k) = none)) :
    j.scanSettings n = c := by
  rcases h with ⟨k, hlast⟩ | ⟨rfl, hnone⟩
  · rw [Journal.scanSettings, Memory.lastEntry_eq_some.mpr hlast]
    rfl
  · rw [Journal.scanSettings, Memory.lastEntry_eq_none.mpr hnone]
    rfl

/-! ## The header (R168; log entry 8) -/

/-- What a programming of the header leaves is what reads back. -/
theorem Header.left_some {bs : List Byte} (h : bs.length = 32) :
    Header.left (some bs) = .ofBytes bs := by
  rw [Header.left, fitBytes_of_length h]

theorem Journal.checkHeader_absent {j : Journal} (h : j.header = .absent)
    (readback : Option (List Byte)) : j.checkHeader readback =
      ({ j with header := .left readback }, decide (Header.left readback = .right)) := if_pos h

theorem Journal.checkHeader_present {j : Journal} (h : j.header ≠ .absent)
    (readback : Option (List Byte)) : j.checkHeader readback = (j, j.header.isRight) := if_neg h

theorem Header.isRight_other (bs : List Byte) : (Header.other bs).isRight = true ↔
    bs = headerBytes ∨ Config.headerHolds bs = true := by
  simp [Header.isRight]

/-- The headers that a scan goes on with. -/
theorem Journal.checkHeader_right {j : Journal} {h : Header} {readback : Option (List Byte)}
    (hh : (h = .right ∧ (j.header = .right ∨ (j.header = .absent ∧
        (readback = none ∨ readback = some headerBytes)))) ∨
      ∃ bs, h = .other bs ∧ j.header = .other bs ∧
        (bs = headerBytes ∨ Config.headerHolds bs = true)) :
    j.checkHeader readback = ({ j with header := h }, true) := by
  have hpresent (hj : j.header = h) (hr : h.isRight = true) :
      j.checkHeader readback = ({ j with header := h }, true) := by
    subst hj
    rw [Journal.checkHeader_present (fun he => by rw [he] at hr; cases hr), hr]
  rcases hh with ⟨rfl, hright | ⟨habsent, hread⟩⟩ | ⟨bs, rfl, hj, hr⟩
  · exact hpresent hright rfl
  · have hleft : Header.left readback = .right := by rcases hread with rfl | rfl <;> simp
    rw [Journal.checkHeader_absent habsent, hleft]
    rfl
  · exact hpresent hj ((Header.isRight_other bs).mpr hr)

section
variable {run : ScanRun} {j t u : Journal} (hc : j.checkHeader run.header = (t, true))
include hc

/-- A scan that counts no SPOILED entry raises no event of its own. -/
theorem Journal.startScan_uncounted (h : t.scan run.spoiledEntry = (u, false)) :
    j.startScan run = (u, false) := by
  simp [Journal.startScan, hc, h]

/-- A scan that counts a SPOILED entry raises JOURNAL_LOW where the room is low. -/
theorem Journal.startScan_counted (h : t.scan run.spoiledEntry = (u, true)) :
    j.startScan run = (u, decide (u.room < Config.lowRoom)) := by
  simp [Journal.startScan, hc, h]

theorem Journal.startScan_foundSettings (h : (j.startScan run).1.state = .ready) :
    (j.startScan run).1.foundSettings = t.scanned.scanSettings t.array.entryCount := by
  have hscan : (j.startScan run).1 = (t.scan run.spoiledEntry).1 := by
    simp [Journal.startScan, hc]
  rw [hscan] at h ⊢
  exact Journal.foundSettings_scan h

end

/-- The free area's SPOILED entry, read back as programmed. -/
theorem Journal.spoilFree_stored {j : Journal} {stop : Nat}
    (hstop : j.array.lastBlockEnd j.appendPoint (entryOffset j.count) = stop) (hne : stop ≠ 0)
    (hfit : stop ≤ entryOffset j.count) : j.spoilFree none =
      ({ j with
        state := .ready, count := j.count + 1, appendPoint := stop
        array := j.array.writeBytes (entryOffset j.count) (entryBytes .spoiled j.appendPoint
          (j.array.readBytes j.appendPoint (stop - j.appendPoint))) }, true) := by
  obtain ⟨hlt, halign⟩ := Memory.lastBlockEnd_pos (hstop.trans_ne hne)
  have hnext : align16 (j.appendPoint + (stop - j.appendPoint)) = stop := by
    rw [hstop] at hlt halign
    rw [Nat.add_sub_cancel' (Nat.le_of_lt hlt), halign]
  rw [Journal.spoilFree_fit hstop hne hfit, Journal.putEntry_none]
  simp [Journal.countEntry, Journal.sound, hnext]

/-- The free area's SPOILED entry, read back wrong. -/
theorem Journal.spoilFree_wrong {j : Journal} {stop : Nat} {bs : List Byte}
    (hstop : j.array.lastBlockEnd j.appendPoint (entryOffset j.count) = stop) (hne : stop ≠ 0)
    (hfit : stop ≤ entryOffset j.count) (hl : bs.length = 8)
    (hbs : bs ≠ entryBytes .spoiled j.appendPoint
      (j.array.readBytes j.appendPoint (stop - j.appendPoint))) : j.spoilFree (some bs) =
      ({ j with
        state := .fault, array := j.array.writeBytes (entryOffset j.count) bs }, false) := by
  rw [Journal.spoilFree_fit hstop hne hfit, Journal.putEntry_wrong hl hbs]
  rfl

end Sys2Proof.Machine

namespace Sys2Proof.Proofs

open Sys2Proof.Machine

/-- Settles O53: the counting, the append point and the last entries by their induction over the slots;
the scan by its header, the first uncounted slot and the last block of the free area. -/
theorem startUpScan : Obligations.StartUpScan := by
  refine ⟨fun m => ?_, fun m n k hk => ⟨m.le_scanPoint hk, m.le_scanPoint_start n⟩,
    fun m n => ⟨m.scanPoint_mod n, (m.scanPoint_eq n).imp_right fun ⟨k, hk, he⟩ =>
      ⟨k, hk, he ▸ align16_lt _⟩⟩,
    fun m n k => Memory.lastCertificate_eq_some,
    fun run j => ⟨fun bs hj hrun hl hne => ?_, fun bs hj hne hholds => ?_⟩, ?_⟩
  · obtain ⟨hmark, -, hend⟩ := m.countEntries_spec slotLimit 0
    exact ⟨fun k hk => hmark k (Nat.zero_le k) hk, fun hlt => hend hlt⟩
  · have hleft : Header.left (some bs) ≠ .right := fun he => hne ((Header.left_eq_right hl).mp he)
    have hc := Journal.checkHeader_absent hj run.header
    rw [hrun, decide_eq_false hleft, Header.left_some hl] at hc
    rw [Journal.startScan_wrong (hrun ▸ hc), Header.ofBytes, if_neg hne]
  · have hr : j.header.isRight = false := by
      rw [hj, Bool.eq_false_iff, Ne, Header.isRight_other, hholds]
      simp [hne]
    refine Journal.startScan_wrong ?_
    rw [Journal.checkHeader_present (by rw [hj]; exact Header.noConfusion), hr]
  · rintro run j seen n h hh rfl rfl
    have hcheck := Journal.checkHeader_right hh
    refine ⟨fun c hc hready => (Journal.startScan_foundSettings hcheck hready).trans
        (Journal.scanSettings_eq hc), Journal.foundSettings_fault,
      fun hslot => Journal.startScan_uncounted hcheck (Journal.scan_notBlank hslot),
      fun hslot => ?_⟩
    have hscan {readback : Option (List Byte)} {r : Journal × Bool} :=
      (Journal.scan_blank (j := { j with header := h }) (readback := readback) hslot).trans (c := r)
    refine ⟨fun hblank => Journal.startScan_uncounted hcheck
      (hscan (Journal.spoilFree_blank (Memory.lastBlockEnd_blank hblank))), ?_⟩
    rintro last stop v entry hmem hlo hhi hlast rfl rfl
    have hstop := Memory.lastBlockEnd_last hmem hlo hhi hlast
    have hne : (last / 16 + 1) * 16 ≠ 0 := by omega
    refine ⟨fun hover => Journal.startScan_uncounted hcheck
        (hscan (Journal.spoilFree_over hstop hne hover)),
      fun hfit => ⟨fun hrun => Journal.startScan_counted hcheck ?_,
        fun bs hrun hl hbs => Journal.startScan_uncounted hcheck ?_⟩⟩
    · rw [hrun]
      exact hscan (Journal.spoilFree_stored hstop hne hfit)
    · rw [hrun]
      exact hscan (Journal.spoilFree_wrong hstop hne hfit hl hbs)

end Sys2Proof.Proofs
end

section
/-! SUPPORT. The journal's requests: READ_JOURNAL and COMMIT_SETTINGS as their decisions make them. -/

namespace Sys2Proof.Machine

/-! ## READ_JOURNAL (R177) -/

theorem readJournal_decided (p : PortNo) (form : List Byte) :
    DecidedBy (.readJournal p form) decideReadJournal := fun _ h _ => by cases h; rfl

/-- The XOR of a range, taken byte after byte (R169). -/
theorem xorBytes_eq_foldl (bs : List Byte) : xorBytes bs = bs.foldl (· ^^^ ·) 0 := by
  have hacc (acc : Byte) : bs.foldl (· ^^^ ·) acc = acc ^^^ xorBytes bs := by
    induction bs generalizing acc with
    | nil => exact (BitVec.xor_zero).symm
    | cons b rest ih => rw [List.foldl_cons, ih, xorBytes, BitVec.xor_assoc]
  exact BitVec.zero_xor.symm.trans (hacc 0).symm

/-- Part of an entry's range, by the offsets in the array. -/
theorem Journal.range_part (j : Journal) (e : Entry) (off n : Nat) :
    ((j.range e).drop off).take n =
      (List.range' (e.start + off) (min n (e.length - off))).map j.byte := by
  refine List.ext_getElem (by simp [Journal.range]) fun i _ _ => ?_
  simp [Journal.range, Nat.add_assoc]

/-- Between the header and the array's end the journal's bytes are the array's (R168). -/
theorem Journal.byte_array {j : Journal} {a : Nat} (hlo : 32 ≤ a) (hhi : a < Config.arraySize) :
    j.byte a = j.array.read a := by
  rw [Journal.byte, if_neg (Nat.not_lt.mpr hlo), if_pos hhi]

theorem decideReadJournal_form {ps : List Byte}
    (h : ps.length ≠ 5 ∨ byteAt ps 4 = 0 ∨ 120 < byteAt ps 4) (s : State) :
    decideReadJournal ps s = refuse .badForm s := if_pos (by omega)

section
variable {ps : List Byte} (hlen : ps.length = 5) (hlo : 1 ≤ byteAt ps 4) (hhi : byteAt ps 4 ≤ 120)
  {s : State}
include hlen hlo hhi

theorem decideReadJournal_noRecord (h : s.journal.count ≤ u16At ps 0) :
    decideReadJournal ps s = refuse .noRecord s := by
  rw [decideReadJournal, if_neg (by omega), if_pos h]

variable (hcount : u16At ps 0 < s.journal.count) {e : Entry}
  (he : e = s.journal.array.entry (u16At ps 0))
include hcount he

theorem decideReadJournal_past (h : e.length ≤ u16At ps 2) :
    decideReadJournal ps s = refuse .outOfRange s := by
  subst he
  rw [decideReadJournal, if_neg (by omega), if_neg (by omega)]
  exact if_pos h

theorem decideReadJournal_read (h : u16At ps 2 < e.length) : decideReadJournal ps s =
    .reply
      (if ((List.range' e.start e.length).map s.journal.byte).foldl (· ^^^ ·) 0 = e.check
        then .ok else .corrupt)
      (enc8 e.kind ++ enc16 e.length ++
        (List.range' (e.start + u16At ps 2)
          (min (byteAt ps 4) (e.length - u16At ps 2))).map s.journal.byte) s := by
  subst he
  rw [decideReadJournal, if_neg (by omega), if_neg (by omega)]
  refine (if_neg (Nat.not_le.mpr h)).trans ?_
  dsimp only
  rw [Journal.range_part, xorBytes_eq_foldl]
  rfl

end

/-! ## COMMIT_SETTINGS (R180) -/

theorem commitSettings_decided (p : PortNo) (form : List Byte) :
    DecidedBy (.commitSettings p form) (decideCommit p) := fun _ h _ => by cases h; rfl

section
variable {p : PortNo} {s : State}

theorem decideCommit_noImage (h : s.staging = none) :
    decideCommit p [] s = refuse .wrongState s := by
  simp [decideCommit, h]

variable {x : Staging} (hx : s.staging = some x)
include hx

theorem decideCommit_held (h : x.holder ≠ p) : decideCommit p [] s = refuse .stagingHeld s := by
  simp [decideCommit, hx, h]

variable (hp : x.holder = p)
include hp

/-- A commit waits for the engines and for an append in flight. -/
theorem decideCommit_notIdle (h : s.winch.state ≠ .idle ∨ s.grout.state ≠ .idle ∨
    s.stress.state ≠ .idle ∨ s.journal.state = .appending) :
    decideCommit p [] s = refuse .notIdle s := by
  have hbusy : (!s.enginesIdle || s.journal.state == .appending) = true := by
    simpa [State.enginesIdle, imp_iff_not_or, or_assoc] using h
  simp [decideCommit, hx, hp, hbusy]

theorem decideCommit_idle (hw : s.winch.state = .idle) (hg : s.grout.state = .idle)
    (hs : s.stress.state = .idle) (hj : s.journal.state ≠ .appending) :
    decideCommit p [] s = decideCommitImage p x.image s := by
  simp [decideCommit, hx, hp, State.enginesIdle, hw, hg, hs, hj]

end

section
variable (p : PortNo) {image : Settings} {s : State}

/-- The first anchor in wall order above the image's panel count is named. -/
theorem decideCommitImage_badSetting {before after : List Anchor} {a : Anchor}
    (h : s.register.records = before ++ a :: after)
    (hb : ∀ b ∈ before, b.pos.panel ≤ image.panelCount) (ha : image.panelCount < a.pos.panel) :
    decideCommitImage p image s = refuseWith .badSetting (encPos (some a.pos)) s := by
  have hfind : s.register.records.find? (fun a => image.panelCount < a.pos.panel) = some a := by
    rw [h]
    refine List.find?_eq_some_iff_append.mpr ⟨by simpa using ha, before, after, rfl, fun b hm => ?_⟩
    simpa using hb b hm
  simp only [decideCommitImage, hfind]

variable (h : ∀ a ∈ s.register.records, a.pos.panel ≤ image.panelCount)
include h

/-- No anchor above the panel count: the journal decides, by its state and its room (log entry 21). -/
theorem decideCommitImage_journal : decideCommitImage p image s =
    if s.journal.state = .fault then refuse .journalFault s
    else if s.journal.room < settingsLength image + 23 then
      refuseWith .journalFull (enc32 s.journal.room ++ enc16 (settingsLength image + 23)) s
    else .busy { s with journal := s.journal.ask .settings (encSettings image) (.commit p) } := by
  have hfind : s.register.records.find? (fun a => image.panelCount < a.pos.panel) = none := by
    simpa using h
  simp only [decideCommitImage, hfind]

theorem decideCommitImage_fault (hf : s.journal.state = .fault) :
    decideCommitImage p image s = refuse .journalFault s :=
  (decideCommitImage_journal p h).trans (if_pos hf)

variable (hr : s.journal.state = .ready)
include hr

theorem decideCommitImage_full (hroom : s.journal.room < settingsLength image + 23) :
    decideCommitImage p image s =
      refuseWith .journalFull (enc32 s.journal.room ++ enc16 (settingsLength image + 23)) s := by
  rw [decideCommitImage_journal p h, if_neg (by simp [hr]), if_pos hroom]

theorem decideCommitImage_asks (hroom : settingsLength image + 23 ≤ s.journal.room) :
    decideCommitImage p image s =
      .busy { s with
        journal := { s.journal with
          state := .appending, inFlight := some ⟨.settings, encSettings image, .commit p⟩ } } := by
  rw [decideCommitImage_journal p h, if_neg (by simp [hr]), if_neg (Nat.not_lt.mpr hroom),
    Journal.ask_ready hr]

end

/-- A request whose owner leaves the mailbox BUSY. -/
theorem Handed.busy {c : Instr} {s t : State} {r : Request} {ps : List Byte}
    {decide : List Byte → State → Decision} (h : Handed c s r ps) (hc : DecidedBy c decide)
    (hd : decide ps (s.taken r.port r.code r.form) = .busy t) : exec c s = .next t := by
  obtain ⟨hr, hon, hps⟩ := h
  rw [hc r hr s, State.expireDue_noneDue hon.2.1, submit_of_handsOn hon, hps, hd]
  rfl

end Sys2Proof.Machine

namespace Sys2Proof.Proofs

open Sys2Proof.Machine

/-- Settles O46: the decision by the form, the entry count and the record's length, on the state with
the submission taken. -/
theorem journalIsRead : Obligations.JournalIsRead := by
  refine ⟨fun p form s r ps h hform => h.reply (readJournal_decided p form)
      (decideReadJournal_form hform _),
    fun p form s r ps e h hlen hlo hhi he => ⟨fun hcount => h.reply (readJournal_decided p form)
      (decideReadJournal_noRecord hlen hlo hhi hcount), fun hcount => ⟨fun hpast => ?_,
        fun hin => ?_, fun a => Journal.byte_array⟩⟩⟩
  · exact h.reply (readJournal_decided p form)
      (decideReadJournal_past hlen hlo hhi hcount he hpast)
  · exact h.reply (readJournal_decided p form)
      (decideReadJournal_read (s := s.taken r.port r.code r.form) hlen hlo hhi hcount he hin)

/-- Settles O49: the decision by its checks in order, on the state with the submission taken. -/
theorem commitsAreDecided : Obligations.CommitsAreDecided := by
  intro p form s r h
  have hc := commitSettings_decided p form
  refine ⟨fun hnone => h.reply hc (decideCommit_noImage hnone), fun x hx => ⟨fun hne =>
    h.reply hc (decideCommit_held hx hne), fun hp => ⟨fun hbusy =>
      h.reply hc (decideCommit_notIdle hx hp hbusy), fun hw hg hs hj => ?_⟩⟩⟩
  have hdec : decideCommit p [] (s.taken r.port r.code r.form) = decideCommitImage p x.image _ :=
    decideCommit_idle hx hp hw hg hs hj
  refine ⟨fun before after a hrec hb ha =>
      h.reply hc (hdec.trans (decideCommitImage_badSetting p hrec hb ha)),
    fun hall => ⟨fun hf => h.reply hc (hdec.trans (decideCommitImage_fault p hall hf)),
      fun hr => ⟨fun hroom => h.reply hc (hdec.trans (decideCommitImage_full p hall hr hroom)),
        fun hroom => h.busy hc (hdec.trans (decideCommitImage_asks p hall hr hroom))⟩⟩⟩

end Sys2Proof.Proofs
end

section
/-! SUPPORT. The layouts: a reply or a record as the list of its fields, each at the sum of the
lengths before it. -/

namespace Sys2Proof.Machine

/-! ## Bytes laid out as fields -/

/-- Fields at their offsets, from an offset on without a gap. -/
def Laid : Nat → List (Nat × List Byte) → Prop
  | _, [] => True
  | off, x :: rest => x.1 = off ∧ Laid (off + x.2.length) rest

/-- A table of fields with others put in by their offsets. -/
def withFields (others fields : List (Nat × List Byte)) : List (Nat × List Byte) :=
  others.foldr (List.orderedInsert fun x y => x.1 ≤ y.1) fields

theorem mem_withFields {others fields : List (Nat × List Byte)} {x : Nat × List Byte} :
    x ∈ withFields others fields ↔ x ∈ others ∨ x ∈ fields := by
  induction others with
  | nil => simp [withFields]
  | cons y rest ih =>
    rw [withFields, List.foldr_cons, List.mem_orderedInsert, ← withFields, ih, List.mem_cons,
      or_assoc]

/-- A field of a layout stands at its offset. -/
theorem holdsAt_of_mem_laid {off : Nat} {L : List (Nat × List Byte)} (h : Laid off L)
    {x : Nat × List Byte} (hx : x ∈ L) :
    off ≤ x.1 ∧ holdsAt (L.map Prod.snd).flatten (x.1 - off) x.2 := by
  induction L generalizing off with
  | nil => cases hx
  | cons y rest ih =>
    obtain ⟨rfl, hrest⟩ := h
    rw [List.map_cons, List.flatten_cons]
    rcases List.mem_cons.mp hx with rfl | hx
    · rw [Nat.sub_self]
      exact ⟨Nat.le_refl _, holdsAt_here _ _⟩
    · obtain ⟨hle, hat⟩ := ih hrest hx
      rw [holdsAt_append (by omega), Nat.sub_sub]
      exact ⟨by omega, hat⟩

/-- Bytes that are fields without a gap hold each of them at its offset: those of a table, and the
others that it leaves out. -/
theorem holdsAt_of_laid {others fields : List (Nat × List Byte)} {bs : List Byte}
    (hbs : bs = ((withFields others fields).map Prod.snd).flatten)
    (h : Laid 0 (withFields others fields)) :
    (∀ x ∈ fields, holdsAt bs x.1 x.2) ∧ ∀ x ∈ others, holdsAt bs x.1 x.2 := by
  subst hbs
  exact ⟨fun x hx => (holdsAt_of_mem_laid h (mem_withFields.mpr (.inr hx))).2,
    fun x hx => (holdsAt_of_mem_laid h (mem_withFields.mpr (.inl hx))).2⟩

/-- A field of a field. -/
theorem holdsAt_within {bs f g : List Byte} {off i : Nat} (hf : holdsAt bs off f)
    (hg : holdsAt f i g) : holdsAt bs (off + i) g := by
  have hsplit : bs.drop off = f ++ (bs.drop off).drop f.length := by
    rw [holdsAt] at hf
    conv_lhs => rw [← List.take_append_drop f.length (bs.drop off), hf]
  have hwhole := holdsAt_append_left hg ((bs.drop off).drop f.length)
  rwa [← hsplit, holdsAt, List.drop_drop] at hwhole

/-- Item `i` of a layout repeated for each element of a list. -/
theorem holdsAt_flatMap {α : Type} {f : α → List Byte} {k : Nat} (h : ∀ x, (f x).length = k)
    {l : List α} {i : Nat} {x : α} (hx : l[i]? = some x) :
    holdsAt (l.flatMap f) (k * i) (f x) := by
  induction l generalizing i with
  | nil => simp at hx
  | cons y rest ih =>
    rw [List.flatMap_cons]
    cases i with
    | zero =>
      rw [List.getElem?_cons_zero, Option.some.injEq] at hx
      subst hx
      exact holdsAt_here _ _
    | succ i =>
      rw [holdsAt_append (by rw [h, Nat.mul_succ]; omega), h, Nat.mul_succ, Nat.add_sub_cancel]
      exact ih (by rwa [List.getElem?_cons_succ] at hx)

/-! ## The parts of the sections (R192) -/

theorem holderCode_eq (x : Option Staging) :
    holderCode x = (x.map fun y => y.holder.val + 1).getD 0 := by cases x <;> rfl

@[simp] theorem panelStates_length (count n : Nat) (ps : List Panel) :
    (panelStates count n ps).length = ps.length := by
  induction ps generalizing n with
  | nil => rfl
  | cons x rest ih => simp [panelStates, ih, Nat.add_comm]

theorem holdsAt_panelStates (count n : Nat) {ps : List Panel} {i : Nat} {x : Panel}
    (h : ps[i]? = some x) :
    holdsAt (panelStates count n ps) i (enc8 (if n + i ≤ count then x.state.code else 0)) := by
  induction ps generalizing i n with
  | nil => simp at h
  | cons y rest ih =>
    rw [panelStates]
    cases i with
    | zero =>
      rw [List.getElem?_cons_zero, Option.some.injEq] at h
      subst h
      exact holdsAt_here _ _
    | succ i =>
      rw [holdsAt_append (by simp), enc8_length, Nat.add_sub_cancel, ← Nat.add_assoc,
        Nat.add_right_comm]
      exact ih (n + 1) (by rwa [List.getElem?_cons_succ] at h)

@[simp] theorem encQueue_length (q : List Claim) : (encQueue q).length = 3 := by
  rw [encQueue, length_flatMap_of_const enc8_length]
  simp

theorem holdsAt_encQueue (q : List Claim) {i : Nat} (hi : i < 3) :
    holdsAt (encQueue q) i (enc8 ((q[i]?.map fun c => engineCode c.engine).getD 0)) := by
  have hitem : ((q.map (fun c : Claim => engineCode c.engine) ++ List.replicate 3 0).take 3)[i]? =
      some ((q[i]?.map fun c => engineCode c.engine).getD 0) := by
    rw [List.getElem?_take_of_lt hi, List.getElem?_append]
    split
    next hq =>
      rw [List.length_map] at hq
      simp [hq]
    next hq =>
      rw [List.length_map] at hq
      rw [List.getElem?_eq_none (l := q) (by omega), List.length_map,
        List.getElem?_replicate_of_lt (by omega)]
      rfl
  have hat := holdsAt_flatMap enc8_length hitem
  rwa [Nat.one_mul] at hat

theorem stressFlags_eq (e : Stress) : stressFlags e =
    (if e.extended = true then 1 else 0) + (if e.makingUp = true then 2 else 0) +
      (if e.accepted = true then 4 else 0) + (if e.tripWait = true then 8 else 0) := rfl

theorem encLastReading_eq (x : Option Reading) : fitBytes 12 ((x.map encReading).getD []) =
    (x.map encReading).getD (List.replicate 12 0) := by
  cases x with
  | none => rfl
  | some y => exact fitBytes_of_length (encReading_length y)

theorem encLastReading_length (x : Option Reading) (b : Byte) :
    ((x.map encReading).getD (List.replicate 12 b)).length = 12 := by cases x <;> rfl

/-- A mark's bytes, or seven of 00h without one. -/
theorem encMark_eq (x : Option Mark) :
    (x.map fun m => encMark (some m)).getD (List.replicate 7 0) = encMark x := by
  cases x <;> rfl

/-- The places of the batches in section 4, of the creep entries and of the marks in section 5. -/
theorem holdsAt_batches (l : List Batch) {i : Nat} (hi : i < 4) :
    holdsAt (fitBytes 64 (l.flatMap encBatch)) (16 * i)
      ((l[i]?.map encBatch).getD (List.replicate 16 0)) :=
  holdsAt_fit_flatMap (k := 16) (m := 4) encBatch_length l hi

theorem holdsAt_creeps (l : List CreepEntry) {i : Nat} (hi : i < 4) :
    holdsAt (fitBytes 24 (l.flatMap encCreep)) (6 * i)
      ((l[i]?.map encCreep).getD (List.replicate 6 0)) :=
  holdsAt_fit_flatMap (k := 6) (m := 4) encCreep_length l hi

theorem holdsAt_marks (l : List Mark) {i : Nat} (hi : i < 3) :
    holdsAt (fitBytes 21 (l.flatMap fun m => encMark (some m))) (7 * i) (encMark l[i]?) := by
  rw [← encMark_eq]
  exact holdsAt_fit_flatMap (k := 7) (m := 3) (fun m => encMark_length (some m)) l hi

/-! ## The lengths of the sections (R192) -/

theorem sectionGeneral_length {s : State} (h : s.panels.length = 32) :
    (sectionGeneral s).length = 59 := by simp [sectionGeneral, h]

theorem sectionSupply_length (s : State) : (sectionSupply s).length = 30 := by
  simp [sectionSupply]

theorem sectionMeasurement_length (s : State) : (sectionMeasurement s).length = 50 := by
  simp [sectionMeasurement]

theorem sectionWinch_length (s : State) : (sectionWinch s).length = 17 := by simp [sectionWinch]

theorem sectionGrout_length (s : State) : (sectionGrout s).length = 107 := by
  unfold sectionGrout
  cases s.grout.latest <;> simp

theorem sectionStress_length (s : State) : (sectionStress s).length = 102 := by
  unfold sectionStress
  simp

theorem sectionLockOff_length (s : State) : (sectionLockOff s).length = 25 := by
  simp [sectionLockOff]

/-! ## The records (R176, R193, R194) -/

theorem encAnchor_length (a : Anchor) : (encAnchor a).length = 78 := by simp [encAnchor]

/-- The parts of an anchor record at their offsets. -/
theorem encAnchor_fields (a : Anchor) :
    ∀ x ∈ [(0, encPos (some a.pos)),
      (3, enc8 a.state.code ++ encFlag a.interrupted ++
        enc8 ((if a.work.isSome then 1 else 0) + (if a.placement.isSome then 2 else 0) +
          (if a.grout.isSome then 4 else 0) + (if a.test.isSome then 8 else 0))),
      (6, encDesign a.design), (23, encWork a.work), (29, encPlacement a.placement),
      (38, encGrout a.grout), (65, encTest a.test)], holdsAt (encAnchor a) x.1 x.2 := by
  refine (holdsAt_of_laid (others := []) ?_ ?_).1
  · simp [encAnchor, withFields, bitIf]
  · simp [withFields, Laid]

theorem certificateRecord_length (e : Stress) (a : Anchor) (result : TestCode)
    (count endTime : Nat) : (certificateRecord e a result count endTime).length =
      104 + 6 * e.creep.length + 12 * e.log.length := by
  unfold certificateRecord
  simp only [List.length_append, enc8_length, enc16_length, enc32_length, encPos_length,
    encLengths_length, encCreeps_length, encLockFigures_length, encGroutSummary_length,
    encReadings_length]
  omega

/-! ## PART_STATUS (R192) -/

theorem partStatus_decided (p : PortNo) (form : List Byte) :
    DecidedBy (.partStatus p form) decidePartStatus := fun _ h _ => by cases h; rfl

theorem decidePartStatus_some {ps data : List Byte} {s : State} (hl : ps.length = 1)
    (h : statusSection s (byteAt ps 0) = some data) :
    decidePartStatus ps s = .reply .ok data s := by
  simp only [decidePartStatus, hl, ne_eq, not_true_eq_false, if_false, h]

theorem statusSection_none (s : State) {n : Nat} (h : 6 < n) : statusSection s n = none := by
  match n, h with
  | _ + 7, _ => rfl

theorem decidePartStatus_none {ps : List Byte} {s : State} (hl : ps.length = 1)
    (h : 6 < byteAt ps 0) : decidePartStatus ps s = refuse .outOfRange s := by
  simp only [decidePartStatus, hl, ne_eq, not_true_eq_false, if_false, statusSection_none s h]

end Sys2Proof.Machine

namespace Sys2Proof.Proofs

open Sys2Proof.Machine

/-- Settles O7: each section and each record as its fields without a gap, and an item of a repeated
part as a field of that part. -/
theorem repliesHaveTheirLayouts : Obligations.RepliesHaveTheirLayouts := by
  refine ⟨⟨?_, ?_, ?_, ?_, ?_, ?_, ?_, ?_, ?_⟩, ?_, ?_⟩
  · intro p form s r hr hon hl
    exact ⟨fun data hdata => Handed.reply ⟨hr, hon, rfl⟩ (partStatus_decided p form)
        (by cases hr; exact decidePartStatus_some hl hdata),
      fun hn => Handed.reply ⟨hr, hon, rfl⟩ (partStatus_decided p form)
        (decidePartStatus_none hl hn)⟩
  · intro s hs
    exact ⟨congrArg some (sectionGeneral_length hs), congrArg some (sectionSupply_length s),
      congrArg some (sectionMeasurement_length s), congrArg some (sectionWinch_length s),
      congrArg some (sectionGrout_length s), congrArg some (sectionStress_length s),
      congrArg some (sectionLockOff_length s)⟩
  · intro s bs hbs hs
    obtain rfl : sectionGeneral s = bs := Option.some.inj hbs
    refine And.imp_right ?_ (holdsAt_of_laid
      (others := [(22, panelStates s.settings.panelCount 1 s.panels)]) ?_ ?_)
    · intro h i x hx
      have hat := holdsAt_panelStates s.settings.panelCount 1 hx
      have hnum : 1 + i ≤ s.settings.panelCount ↔ i < s.settings.panelCount := by omega
      simp only [hnum] at hat
      have hpanels : holdsAt (sectionGeneral s) 22 _ := h (22, _) List.mem_cons_self
      exact holdsAt_within hpanels hat
    · simp [sectionGeneral, withFields, holderCode_eq]
    · simp [withFields, Laid, hs]
  · intro s bs hbs
    obtain rfl : sectionSupply s = bs := Option.some.inj hbs
    refine And.imp_right ?_ (holdsAt_of_laid (others := [(9, encQueue s.supply.queue)]) ?_ ?_)
    · intro h i hi
      have hqueue : holdsAt (sectionSupply s) 9 _ := h (9, _) List.mem_cons_self
      exact holdsAt_within hqueue (holdsAt_encQueue _ hi)
    · simp [sectionSupply, withFields, Supply.free]
    · simp [withFields, Laid]
  · intro s bs hbs
    obtain rfl : sectionMeasurement s = bs := Option.some.inj hbs
    refine (holdsAt_of_laid (others := []) ?_ ?_).1
    · simp [sectionMeasurement, withFields]
    · simp [withFields, Laid]
  · intro s bs hbs
    obtain rfl : sectionWinch s = bs := Option.some.inj hbs
    refine (holdsAt_of_laid (others := []) ?_ ?_).1
    · simp [sectionWinch, withFields]
    · simp [withFields, Laid]
  · intro s bs hbs
    obtain rfl : sectionGrout s = bs := Option.some.inj hbs
    refine And.imp_right ?_ (holdsAt_of_laid
      (others := [(43, fitBytes 64 (s.batches.flatMap encBatch))]) ?_ ?_)
    · intro h i hi
      have hbatches : holdsAt (sectionGrout s) 43 _ := h (43, _) List.mem_cons_self
      exact holdsAt_within hbatches (holdsAt_batches s.batches hi)
    · unfold sectionGrout
      cases s.grout.latest <;> simp [withFields, encFlag, State.groutMark]
    · simp [withFields, Laid]
  · intro s bs hbs
    obtain rfl : sectionStress s = bs := Option.some.inj hbs
    refine And.imp_right ?_ (holdsAt_of_laid
      (others := [(52, fitBytes 24 (s.stress.creep.flatMap encCreep)),
        (81, fitBytes 21 (s.stressMarks.flatMap fun m => encMark (some m)))]) ?_ ?_)
    · intro h
      have hcreep : holdsAt (sectionStress s) 52 _ := h (52, _) List.mem_cons_self
      have hmarks : holdsAt (sectionStress s) 81 _ :=
        h (81, _) (List.mem_cons_of_mem _ List.mem_cons_self)
      exact ⟨fun i hi => holdsAt_within hcreep (holdsAt_creeps s.stress.creep hi),
        fun i hi => holdsAt_within hmarks (holdsAt_marks s.stressMarks hi)⟩
    · unfold sectionStress
      simp [withFields, encLastReading_eq, stressFlags_eq]
    · simp [withFields, Laid, encLastReading_length, -List.reduceReplicate]
  · intro s bs hbs
    obtain rfl : sectionLockOff s = bs := Option.some.inj hbs
    refine (holdsAt_of_laid (others := []) ?_ ?_).1
    · simp [sectionLockOff, withFields]
    · simp [withFields, Laid]
  · intro a
    have h := encAnchor_fields a
    have hlen := encAnchor_length a
    simp only [List.forall_mem_cons, List.not_mem_nil, false_implies, implies_true, and_true,
      holdsAt, List.length_append, enc8_length, encFlag_length, encPos_length, encDesign_length,
      encWork_length, encPlacement_length, encGrout_length, encTest_length, List.drop_zero] at h
    obtain ⟨hpos, hflags, hdesign, hwork, hplace, hgrout, htest⟩ := h
    rw [List.take_of_length_le (by rw [List.length_drop, hlen])] at htest
    exact ⟨hlen, hpos, hflags, hdesign, hwork, hplace, hgrout, htest⟩
  · intro e a result count endTime c n bs hbs hc hn
    subst hc hn
    refine ⟨hbs ▸ certificateRecord_length e a result count endTime,
      (holdsAt_of_laid (others := []) (hbs.trans ?_) ?_).1⟩
    · unfold certificateRecord
      simp [withFields, certificateLength, secondsOf]
    · simp +arith [withFields, Laid]

end Sys2Proof.Proofs
end

section
/-! SUPPORT. The four ports: what every command keeps of their mailboxes and flags. -/

namespace Sys2Proof.Machine

/-! ## Every port sound (R181, R183) -/

/-- A mailbox of 256 bytes that shows its state, and no flags when DISABLED. -/
def Port.Sound (x : Port) : Prop := x.mailSound = true ∧ x.flagsSound = true

theorem Port.Sound.moves {x y : Port} (h : x.Sound) (hm : x.Moves y) : y.Sound :=
  ⟨hm.2.1 h.1, hm.2.2 h.2⟩

theorem Ports.sound_iff (ps : Ports) : ps.sound = true ↔ ∀ p, (ps.get p).Sound := by
  simp only [Ports.sound, Port.Sound, Bool.and_eq_true, Fin.forall_fin_succ, Fin.forall_fin_zero,
    Ports.get]
  tauto

theorem Ports.get_raise (e : Event) (ps : Ports) (p : PortNo) :
    (ps.raise e).get p = (ps.get p).raise e := by
  match p with | 0 => rfl | 1 => rfl | 2 => rfl | 3 => rfl

/-! ## Every command -/

theorem State.acceptRelease_ports (e : Engine) (s : State) :
    (s.acceptRelease e).ports = s.ports := by
  unfold State.acceptRelease
  split <;> rfl

/-- What a port's own operations and a raised event keep of a port, every shared operation keeps. -/
theorem keeps_port {Q : Port → Prop} (hQ : ∀ {x y : Port}, Q x → x.Moves y → Q y) (p : PortNo) :
    Keeps fun s => Q (s.ports.get p) := by
  have raised : ∀ (e : Event) (ps : Ports), Q (ps.get p) → Q ((ps.raise e).get p) := fun e ps h => by
    rw [Ports.get_raise]
    exact hQ h (Keeps.moves_raise e _)
  exact {
    free := fun {s t} h e => by
      have hports : t.ports = s.ports := congrArg Guarded.ports e
      simpa only [hports] using h
    insertMark := fun _ _ h => h
    dropMarks := fun _ h => h
    headMark := fun h _ => h
    duty := fun _ _ _ h => h
    period := fun _ _ h => h
    claim := fun _ _ h _ _ => h
    release := fun e h => by simpa only [State.acceptRelease_ports] using h
    line := fun _ h => h
    trip := fun h _ => raised .packTrip _ h
    clear := fun h => h
    raise := fun e h => raised e _ h
    port := fun {s} q f h hf => by
      rw [State.modifyPort_ports]
      by_cases hq : p = q
      · subst hq
        rw [Ports.get_put]
        exact hQ h (hf _)
      · rw [Ports.get_put_other _ _ q p hq]
        exact h
    records := fun _ h _ => h
    found := fun _ h _ _ => h
    slot := fun _ h => h
    declare := fun _ h _ _ _ => h
    withdraw := fun h _ _ => h
    panel := fun _ _ h _ => h
    ask := fun _ _ _ h => h
    settle := fun _ h _ => h
    stage := fun _ _ h _ => h
    profile := fun _ _ _ h => h
    unstage := fun h => h }

theorem keeps_portSound (p : PortNo) : Keeps fun s => (s.ports.get p).Sound :=
  keeps_port Port.Sound.moves p

theorem Ports.atStartUp_get_sound (a b c d : Role) (unset : Bool) (p : PortNo) :
    (Ports.get ⟨.atStartUp a unset, .atStartUp b unset, .atStartUp c unset,
      .atStartUp d unset⟩ p).Sound :=
  (Ports.sound_iff _).mp (Ports.atStartUp_sound a b c d unset) p

theorem State.portSound_finishStartUp {s : State} {p : PortNo} (h : (s.ports.get p).Sound)
    (run : ScanRun) : ((s.finishStartUp run).ports.get p).Sound := by
  have raised : ∀ e : Event, ((s.ports.raise e).get p).Sound := fun e =>
    (keeps_portSound p).raise e h
  have hscan : ((s.scanJournal run).ports.get p).Sound := by
    simp only [State.scanJournal_eq]
    split
    · exact raised .journalFault
    · split
      · exact raised .journalLow
      · exact h
  exact (keeps_portSound p).fixUpSlot ((keeps_portSound p).fixUpRecords hscan)

theorem exec_portSound (c : Instr) {s : State} {p : PortNo} (h : (s.ports.get p).Sound) :
    After (fun t => (t.ports.get p).Sound) (exec c s) := by
  have hdue : (s.expireDue.ports.get p).Sound := (keeps_portSound p).expireDue h
  refine (keeps_portSound p).exec_of h ?_ ?_ ?_ ?_
  · rintro cause pins phases run rfl
    show After _ (onStartUp cause pins phases run s.expireDue)
    unfold onStartUp
    split
    · exact hdue
    · exact Ports.atStartUp_get_sound _ _ _ _ _ p
  · rintro phases run rfl
    exact Keeps.powered (P := fun t => (t.ports.get p).Sound) hdue
      fun _ _ => Ports.atStartUp_get_sound _ _ _ _ _ p
  · rintro run rfl
    show After _ (onStartUpScanDone run s.expireDue)
    unfold onStartUpScanDone
    split
    · exact hdue
    · exact State.portSound_finishStartUp hdue run
  · rintro run rfl
    exact (keeps_portSound p).appended (fun hu _ => hu) run h

end Sys2Proof.Machine

namespace Sys2Proof.Proofs

open Sys2Proof.Machine

/-- Settles O58: the soundness of each port survives every command, and an empty queue idles. -/
theorem portsAreKept : Obligations.PortsAreKept := by
  intro s t h hst
  cases hq : s.pending with
  | nil =>
    simp only [step, hq] at hst
    cases hst
    exact h
  | cons c rest =>
    refine (Ports.sound_iff _).mpr fun p => ?_
    have hport : ((State.ports { s with pending := rest }).get p).Sound := (Ports.sound_iff _).mp h p
    have hc := exec_portSound c hport
    rw [← step_cons hq, hst] at hc
    exact hc

end Sys2Proof.Proofs
end

section
/-! SUPPORT. The settings record: each of its fields read back from the bytes written. -/

namespace Sys2Proof.Machine

/-! ## Reading behind other bytes (R186) -/

theorem byteAt_behind (before bs : List Byte) (i : Nat) :
    byteAt (before ++ bs) (before.length + i) = byteAt bs i := by
  rw [byteAt, List.getD_append_right _ _ _ _ (Nat.le_add_right _ _), Nat.add_sub_cancel_left, byteAt]

theorem u16At_behind (before bs : List Byte) (i : Nat) :
    u16At (before ++ bs) (before.length + i) = u16At bs i := by
  simp only [u16At, Nat.add_assoc, byteAt_behind]

theorem valuesAt_behind (before bs : List Byte) (i n : Nat) :
    valuesAt (before ++ bs) (before.length + i) n = valuesAt bs i n := by
  induction n generalizing i with
  | zero => rfl
  | succ n ih => simp only [valuesAt, u16At_behind, Nat.add_assoc, ih]

theorem stepAt_behind (before bs : List Byte) (i : Nat) :
    stepAt (before ++ bs) (before.length + i) = stepAt bs i := by
  simp only [stepAt, Nat.add_assoc, byteAt_behind, u16At_behind]

theorem stepsAt_behind (before bs : List Byte) (i n : Nat) :
    stepsAt (before ++ bs) (before.length + i) n = stepsAt bs i n := by
  induction n generalizing i with
  | zero => rfl
  | succ n ih => simp only [stepsAt, stepAt_behind, Nat.add_assoc, ih]

/-! ## Values and steps read back (R195) -/

theorem valuesAt_flatMap {vs : List Nat} (h : ∀ v ∈ vs, v < 65536) (after : List Byte) :
    valuesAt (vs.flatMap enc16 ++ after) 0 vs.length = vs := by
  induction vs with
  | nil => rfl
  | cons v rest ih =>
    rw [List.forall_mem_cons] at h
    have hfirst := u16At_enc16 h.1 [] (rest.flatMap enc16 ++ after)
    have hrest := valuesAt_behind (enc16 v) (rest.flatMap enc16 ++ after) 0 rest.length
    rw [List.flatMap_cons, List.append_assoc, List.length_cons, valuesAt]
    exact congrArg₂ List.cons hfirst (hrest.trans (ih h.2))

/-- A step whose values fit its seven bytes (R195). -/
def Step.Fits (st : Step) : Prop :=
  st.target < 65536 ∧ st.hold < 65536 ∧ st.ext % 10 = 0 ∧ st.ext < 655360

theorem roleOfCode_code (r : StepRole) : roleOfCode r.code = some r := by cases r <;> rfl

theorem StepRole.code_lt (r : StepRole) : r.code < 8 := by cases r <;> decide

/-- The role and the creep bit of a step's last byte. -/
theorem stepBits_read (r : StepRole) (creep : Bool) :
    (r.code + if creep then 128 else 0) % 8 = r.code ∧
      decide (128 ≤ r.code + if creep then 128 else 0) = creep := by
  have hr := r.code_lt
  cases creep <;> simp <;> omega

theorem stepAt_encStep {st : Step} (h : st.Fits) (after : List Byte) :
    stepAt (encStep st ++ after) 0 = some st := by
  obtain ⟨htarget, hhold, hten, hext⟩ := h
  obtain ⟨hrole, hcreep⟩ := stepBits_read st.role st.creep
  have hbits : (st.role.code + if st.creep then 128 else 0) < 256 := by
    have := st.role.code_lt
    split <;> omega
  have h0 := u16At_enc16 htarget []
  have h2 := u16At_enc16 hhold (enc16 st.target)
  have h4 := u16At_enc16 (by omega : st.ext / 10 < 65536) (enc16 st.target ++ enc16 st.hold)
  have h6 := byteAt_enc8 hbits (enc16 st.target ++ enc16 st.hold ++ enc16 (st.ext / 10))
  simp only [List.length_append, enc16_length, List.append_assoc, List.nil_append,
    List.length_nil] at h0 h2 h4 h6
  simp only [stepAt, encStep, List.append_assoc, h0, h2, h4, h6, hrole, hcreep, roleOfCode_code,
    Option.map_some, Nat.div_mul_cancel (Nat.dvd_of_mod_eq_zero hten)]

theorem stepsAt_flatMap {steps : List Step} (h : ∀ st ∈ steps, st.Fits) (after : List Byte) :
    stepsAt (steps.flatMap encStep ++ after) 0 steps.length = steps.map some := by
  induction steps with
  | nil => rfl
  | cons st rest ih =>
    rw [List.forall_mem_cons] at h
    have hrest := stepsAt_behind (encStep st) (rest.flatMap encStep ++ after) 0 rest.length
    rw [List.flatMap_cons, List.append_assoc, List.length_cons, stepsAt]
    exact congrArg₂ List.cons (stepAt_encStep h.1 _) (hrest.trans (ih h.2))

/-! ## Profiles read back (R195) -/

/-- A profile whose step count and steps fit their fields, if it is defined. -/
def ProfileFits (x : Option (List Step)) : Prop :=
  ∀ steps, x = some steps → steps.length ≤ 255 ∧ ∀ st ∈ steps, st.Fits

@[simp] theorem encProfile_length (k : Nat) (x : Option (List Step)) :
    (encProfile k x).length = profileLength x := by
  cases x with
  | none => rfl
  | some steps =>
    simp only [encProfile, profileLength, List.length_append, enc8_length,
      length_flatMap_of_const encStep_length]

theorem profileLength_le {x : Option (List Step)} (h : ProfileFits x) : profileLength x ≤ 1787 := by
  cases x with
  | none => exact Nat.zero_le _
  | some steps =>
    have hlen := (h steps rfl).1
    simp only [profileLength]
    omega

/-- A profile written in front of other bytes is read back, and those bytes are left. -/
theorem readProfile_encProfile {mask k : Nat} {x : Option (List Step)} (hk : k < 256)
    (hmask : mask.testBit (k - 1) = x.isSome) (h : ProfileFits x) (after : List Byte) :
    readProfile mask k (encProfile k x ++ after) = some (x, after) := by
  cases x with
  | none => simp [readProfile, hmask, encProfile]
  | some steps =>
    obtain ⟨hlen, hsteps⟩ := h steps rfl
    have h0 := byteAt_enc8 hk [] (enc8 steps.length ++ (steps.flatMap encStep ++ after))
    have h1 := byteAt_enc8 (by omega : steps.length < 256) (enc8 k)
      (steps.flatMap encStep ++ after)
    have h2 := stepsAt_behind (enc8 k ++ enc8 steps.length) (steps.flatMap encStep ++ after) 0
      steps.length
    rw [stepsAt_flatMap hsteps] at h2
    simp only [List.append_assoc, List.nil_append, List.length_nil, enc8_length,
      List.length_append] at h0 h1 h2
    have hall : (encProfile k (some steps)).length = 2 + 7 * steps.length := encProfile_length k _
    have hdrop : (encProfile k (some steps) ++ after).drop (2 + 7 * steps.length) = after :=
      List.drop_left' hall
    have hlong : 2 + 7 * steps.length ≤ (encProfile k (some steps) ++ after).length := by
      rw [List.length_append, hall]
      exact Nat.le_add_right _ _
    simp only [encProfile, List.append_assoc] at hdrop hlong
    simp only [readProfile, hmask, Option.isSome_some, if_true, encProfile, List.append_assoc, h0, h1,
      h2, hdrop, Nat.not_lt.mpr hlong, ne_eq, not_true_eq_false, or_self, if_false,
      allSteps_map_some, Option.map_some]

/-- The mask's bits are those of the profiles defined. -/
theorem maskBits_testBit (a b c d : Bool) :
    (bitIf a 0 + bitIf b 1 + bitIf c 2 + bitIf d 3).testBit 0 = a ∧
      (bitIf a 0 + bitIf b 1 + bitIf c 2 + bitIf d 3).testBit 1 = b ∧
      (bitIf a 0 + bitIf b 1 + bitIf c 2 + bitIf d 3).testBit 2 = c ∧
      (bitIf a 0 + bitIf b 1 + bitIf c 2 + bitIf d 3).testBit 3 = d ∧
      bitIf a 0 + bitIf b 1 + bitIf c 2 + bitIf d 3 < 256 := by
  revert a b c d
  decide

/-! ## The whole record (R195) -/

/-- The first 90 bytes of a settings record: kind, version, length and the 43 values. -/
def settingsHead (c : Settings) : List Byte :=
  enc8 2 ++ enc8 1 ++ enc16 (settingsLength c) ++ c.values.flatMap enc16

theorem settingsHead_length (c : Settings) : (settingsHead c).length = 90 := by
  simp [settingsHead, length_flatMap_of_const enc16_length]

theorem encSettings_eq (c : Settings) : encSettings c = settingsHead c ++
    (enc8 (profileMask c) ++ (encProfile 1 c.profile1 ++ (encProfile 2 c.profile2 ++
      (encProfile 3 c.profile3 ++ (encProfile 4 c.profile4 ++ []))))) := by
  simp [encSettings, settingsHead]

theorem encSettings_length (c : Settings) : (encSettings c).length = settingsLength c := by
  rw [encSettings_eq]
  simp only [List.length_append, settingsHead_length, enc8_length, encProfile_length,
    List.length_nil, settingsLength]
  omega

/-- The head of a record, followed by any bytes. -/
theorem settingsHead_read {c : Settings} (hv : ∀ v ∈ c.values, v < 65536)
    (hl : settingsLength c < 65536) (after : List Byte) :
    byteAt (settingsHead c ++ after) 0 = 2 ∧ byteAt (settingsHead c ++ after) 1 = 1 ∧
      u16At (settingsHead c ++ after) 2 = settingsLength c ∧
      valuesAt (settingsHead c ++ after) 4 43 = c.values := by
  have hlen := u16At_enc16 hl (enc8 2 ++ enc8 1) (c.values.flatMap enc16 ++ after)
  have hvalues := valuesAt_behind (enc8 2 ++ enc8 1 ++ enc16 (settingsLength c))
    (c.values.flatMap enc16 ++ after) 0 c.values.length
  rw [valuesAt_flatMap hv] at hvalues
  simp only [List.length_append, enc8_length, enc16_length, List.append_assoc] at hlen hvalues
  simp only [settingsHead, List.append_assoc]
  exact ⟨rfl, rfl, hlen, hvalues⟩

/-- A settings record is read back, when every value and profile fits its field. -/
theorem decSettings_encSettings {c : Settings} (hv : ∀ v ∈ c.values, v < 65536)
    (hp : ∀ x ∈ c.profiles, ProfileFits x) : decSettings (encSettings c) = some c := by
  simp only [Settings.profiles, List.forall_mem_cons, List.not_mem_nil, false_implies,
    implies_true, and_true] at hp
  obtain ⟨hp1, hp2, hp3, hp4⟩ := hp
  have hl : settingsLength c < 65536 := by
    have h1 := profileLength_le hp1
    have h2 := profileLength_le hp2
    have h3 := profileLength_le hp3
    have h4 := profileLength_le hp4
    unfold settingsLength
    omega
  obtain ⟨m1, m2, m3, m4, hm⟩ := maskBits_testBit c.profile1.isSome c.profile2.isSome
    c.profile3.isSome c.profile4.isSome
  have hlong : 91 ≤ settingsLength c := by unfold settingsLength; omega
  have hlength := encSettings_length c
  rw [encSettings_eq] at hlength ⊢
  generalize hrest : encProfile 1 c.profile1 ++ _ = rest at hlength ⊢
  obtain ⟨hkind, hversion, hsize, hvalues⟩ := settingsHead_read hv hl (enc8 (profileMask c) ++ rest)
  have hmask := byteAt_enc8 (n := profileMask c) hm (settingsHead c) rest
  rw [settingsHead_length] at hmask
  have hdrop : (settingsHead c ++ (enc8 (profileMask c) ++ rest)).drop 91 = rest := by
    rw [← List.append_assoc]
    exact List.drop_left' (by simp [settingsHead_length])
  unfold decSettings
  rw [hkind, hversion, hsize, hvalues, hmask, hdrop, hlength, if_neg (by omega), ← hrest,
    readProfile_encProfile (by omega) m1 hp1]
  simp only []
  rw [readProfile_encProfile (by omega) m2 hp2]
  simp only []
  rw [readProfile_encProfile (by omega) m3 hp3]
  simp only []
  rw [readProfile_encProfile (by omega) m4 hp4]
  rfl

end Sys2Proof.Machine

namespace Sys2Proof.Proofs

open Sys2Proof.Machine

/-- Settles O50: each value and each step is read back from its own bytes, and each profile leaves the
bytes behind it. -/
theorem settingsRecordsReadBack : Obligations.SettingsRecordsReadBack := by
  intro c hv hp
  refine ⟨encSettings_length c, decSettings_encSettings hv ?_⟩
  rintro x hx steps rfl
  exact hp steps hx

end Sys2Proof.Proofs
end

section
/-! SUPPORT. A mailbox byte by byte: what a store, a submission taken and a reply leave at each offset. -/

namespace Sys2Proof.Machine

/-! ## Bytes of a mailbox (R182, R183) -/

theorem getD_append_ite (l l' : List Byte) (i : Nat) : (l ++ l').getD i 0 =
    if i < l.length then l.getD i 0 else l'.getD (i - l.length) 0 := by
  split
  next h => exact List.getD_append _ _ _ _ h
  next h => exact List.getD_append_right _ _ _ _ (Nat.le_of_not_lt h)

theorem getD_take_of_lt {l : List Byte} {i n : Nat} (h : i < n) :
    (l.take n).getD i 0 = l.getD i 0 := by
  rw [List.getD_eq_getElem?_getD, List.getElem?_take_of_lt h, List.getD_eq_getElem?_getD]

theorem getD_drop (l : List Byte) (n i : Nat) : (l.drop n).getD i 0 = l.getD (n + i) 0 := by
  rw [List.getD_eq_getElem?_getD, List.getElem?_drop, List.getD_eq_getElem?_getD]

theorem getD_replicate_zero (n i : Nat) : (List.replicate n (0 : Byte)).getD i 0 = 0 := by
  rw [List.getD_eq_getElem?_getD, List.getElem?_getD_replicate_default_eq]

/-- Stored bytes stand from their offset on, below 80h only; every other byte stays (R182). -/
theorem Port.readByte_store {x : Port} (h : x.mem.length = 256) (off : Nat) (bs : List Byte)
    (i : Nat) : (x.store off bs).readByte i =
      if off ≤ i ∧ i < 128 ∧ i < off + bs.length then bs.getD (i - off) 0 else x.readByte i := by
  rcases Nat.lt_or_ge off 128 with hoff | hoff
  · simp only [Port.store, Port.readByte, getD_append_ite, List.length_append, List.length_take,
      h, getD_drop]
    have hmin : min off 256 = off := by omega
    rw [hmin]
    by_cases hbefore : i < off
    · rw [if_pos (by omega), if_pos hbefore, getD_take_of_lt hbefore, if_neg (by omega)]
    · by_cases hin : i < 128 ∧ i < off + bs.length
      · rw [if_pos (by omega), if_neg hbefore, getD_take_of_lt (by omega), if_pos (by omega)]
      · rw [if_neg (by omega), if_neg (by omega)]
        congr 1
        omega
  · have hnone : (128 - off) = 0 := by omega
    rw [if_neg (by omega)]
    simp [Port.store, Port.readByte, hnone]

/-- Nothing is stored at 80h and above (R182). -/
theorem Port.store_reply_area {off : Nat} (h : 128 ≤ off) (bs : List Byte) (x : Port) :
    x.store off bs = x := by
  have hnone : (128 - off) = 0 := by omega
  simp [Port.store, hnone]

/-- The request area of a BUSY mailbox is as stored, 80h shows BUSY, and 00h follows (R183). -/
theorem Port.readByte_accept {x : Port} (h : x.mem.length = 256) (i : Nat) :
    x.accept.readByte i = if i < 128 then x.readByte i else if i = 128 then 2 else 0 := by
  have hlen : (x.mem.take 128).length = 128 := by
    rw [List.length_take, h]
    rfl
  rw [Port.readByte, Port.accept, getD_append_ite, hlen]
  split
  next hi => rw [getD_take_of_lt hi, Port.readByte]
  next hi =>
    obtain ⟨j, rfl⟩ := Nat.exists_eq_add_of_le (Nat.le_of_not_lt hi)
    rw [Nat.add_sub_cancel_left]
    cases j with
    | zero => rfl
    | succ j => exact (getD_replicate_zero 127 j).trans (if_neg (by omega)).symm

/-- The bytes of a DONE mailbox: the request area as it was, then DONE, the status, the length and the
data (R183). -/
theorem Port.readByte_answer {x : Port} (h : x.mem.length = 256) (st : Status) (data : List Byte) :
    (∀ i, i < 128 → (x.answer st data).readByte i = x.readByte i) ∧
      (x.answer st data).readByte 128 = 3 ∧ (x.answer st data).readByte 129 = st.code ∧
      (x.answer st data).readByte 130 = BitVec.ofNat 8 data.length ∧
      ∀ i, (x.answer st data).readByte (131 + i) = (fitBytes 125 data).getD i 0 := by
  have hlen : (x.mem.take 128).length = 128 := by
    rw [List.length_take, h]
    rfl
  have behind : ∀ i, (x.answer st data).readByte (128 + i) =
      (BitVec.ofNat 8 MailState.done.code :: st.code :: BitVec.ofNat 8 data.length ::
        fitBytes 125 data).getD i 0 := fun i => by
    rw [Port.readByte, Port.answer, getD_append_ite, hlen, if_neg (by omega),
      Nat.add_sub_cancel_left]
  refine ⟨fun i hi => ?_, behind 0, behind 1, behind 2, fun i => ?_⟩
  · rw [Port.readByte, Port.answer, getD_append_ite, hlen, if_pos hi, getD_take_of_lt hi,
      Port.readByte]
  · have hi : 131 + i = 128 + (i + 3) := by omega
    rw [hi, behind]
    rfl

theorem getD_fitBytes {n : Nat} {bs : List Byte} (h : bs.length ≤ n) (i : Nat) :
    (fitBytes n bs).getD i 0 = bs.getD i 0 := by
  have hfit : fitBytes n bs = bs ++ List.replicate (n - bs.length) 0 := by
    rw [fitBytes, List.take_append, List.take_of_length_le h, List.take_replicate, Nat.min_eq_left
      (Nat.sub_le _ _)]
  rw [hfit, getD_append_ite]
  split
  · rfl
  next hi =>
    rw [List.getD_eq_default _ _ (Nat.le_of_not_lt hi)]
    exact getD_replicate_zero _ _

/-! ## The parameters of a request (R183) -/

theorem Port.params_store_accept {x : Port} {code : Byte} {ps : List Byte} (h : ps.length ≤ 126) :
    ((x.store 0 (code :: BitVec.ofNat 8 ps.length :: ps)).accept).params = ps := by
  have hshort : (code :: BitVec.ofNat 8 ps.length :: ps).length ≤ 128 := by
    simp only [List.length_cons]
    omega
  obtain ⟨rest, hmem⟩ : ∃ rest, ((x.store 0 (code :: BitVec.ofNat 8 ps.length :: ps)).accept).mem =
      (code :: BitVec.ofNat 8 ps.length :: ps) ++ rest := by
    simp only [Port.accept, Port.store, List.take_zero, List.nil_append, Nat.sub_zero,
      List.take_of_length_le hshort]
    rw [List.take_append, List.take_of_length_le hshort, List.append_assoc]
    exact ⟨_, rfl⟩
  have hlen : ((x.store 0 (code :: BitVec.ofNat 8 ps.length :: ps)).accept).formLength =
      ps.length := by
    simp [Port.formLength, hmem, byteAt]
    omega
  simp [Port.params, hlen, hmem]

end Sys2Proof.Machine

namespace Sys2Proof.Proofs

open Sys2Proof.Machine

/-- Settles O5: the bytes of the store, of the submission taken and of the reply, one over another. -/
theorem mailboxHoldsRequestAndReply : Obligations.MailboxHoldsRequestAndReply := by
  intro x code form st data hx hdata busy done
  have hstored : (x.store 0 (code :: form)).mem.length = 256 := Keeps.length_store 0 _ x hx
  have hbusy : ∀ i, busy.readByte i = _ := Port.readByte_accept hstored
  have hlen : busy.mem.length = 256 := by
    simp [busy, Port.accept, hstored]
  obtain ⟨harea, hdone, hstatus, hlength, hbytes⟩ := Port.readByte_answer hlen st data
  refine ⟨rfl, rfl, fun i hi => ?_, hbusy 128, fun i hi => ?_, harea, hdone, hstatus, ?_,
    fun i => (hbytes i).trans (getD_fitBytes hdata i), ?_⟩
  · rw [hbusy, if_pos hi, Port.readByte_store hx]
    cases i with
    | zero => simp
    | succ i => simp [hi]
  · rw [hbusy, if_neg (by omega), if_neg (by omega)]
  · rw [hlength, BitVec.toNat_ofNat]
    omega
  · rintro ps hps rfl
    exact Port.params_store_accept hps

end Sys2Proof.Proofs
end

section
/-! SUPPORT. Transfers at a port: what an open port makes of a submission, of a write transfer that is
none, and of a read transfer. -/

namespace Sys2Proof.Machine

/-! ## A port written (R181) -/

/-- The state with one port changed differs from the state at that port alone. -/
theorem State.modifyPort_frame (p : PortNo) (f : Port → Port) (s : State) :
    { s.modifyPort p f with ports := s.ports } = s ∧
      ∀ q, q ≠ p → (s.modifyPort p f).ports.get q = s.ports.get q :=
  ⟨rfl, fun q hq => Ports.get_put_other _ _ p q hq⟩

theorem State.modifyPort_self {p : PortNo} {f : Port → Port} {s : State}
    (h : f (s.ports.get p) = s.ports.get p) : s.modifyPort p f = s := by
  rw [State.modifyPort, h, Ports.put_get]

/-! ## Open ports (R181, R182) -/

theorem State.acksAddress_iff {s : State} {p : PortNo} {address : Nat} :
    s.acksAddress p address = true ↔ s.powered = true ∧ (s.ports.get p).role ≠ .disabled ∧
      address = 0x38 + p.val := by
  simp [State.acksAddress, portAddress, and_assoc]

theorem State.acksOffset_iff {s : State} {p : PortNo} {off : Nat} :
    s.acksOffset p off = true ↔ s.powered = true ∧ (s.ports.get p).role ≠ .disabled ∧
      ((s.ports.get p).mailState ≠ .busy ∨ 128 ≤ off) := by
  simp [State.acksOffset, State.acksAddress, and_assoc]

/-- An enabled port of a running part that is not BUSY acknowledges every offset byte. -/
theorem State.acksOffset_open {s : State} {p : PortNo} (hp : s.powered = true)
    (hr : (s.ports.get p).role ≠ .disabled) (hm : (s.ports.get p).mailState ≠ .busy) (off : Nat) :
    s.acksOffset p off = true :=
  State.acksOffset_iff.mpr ⟨hp, hr, .inl hm⟩

/-- A port that is DISABLED or BUSY takes no request. -/
theorem State.portOpen_shut {s : State} {p : PortNo}
    (h : (s.ports.get p).role = .disabled ∨ (s.ports.get p).mailState = .busy) :
    s.portOpen p = false := by
  rw [State.portOpen, ← Bool.not_eq_true, State.acksOffset_iff]
  rcases h with h | h <;> simp [h]

/-- A port that is DISABLED or BUSY stores nothing of a write transfer (log entry 22). -/
theorem State.storeAt_shut {s : State} {p : PortNo}
    (h : (s.ports.get p).role = .disabled ∨ (s.ports.get p).mailState = .busy) (off : Nat)
    (bs : List Byte) : s.storeAt p off bs = s := by
  unfold State.storeAt
  split
  next hacks =>
    obtain ⟨-, hr, hm⟩ := State.acksOffset_iff.mp hacks
    have hoff : 128 ≤ off := by
      rcases h with h | h
      · exact absurd h hr
      · exact hm.resolve_left fun hb => hb h
    exact State.modifyPort_self (Port.store_reply_area hoff bs _)
  next => rfl

/-! ## Submissions at an open port (R183, R184) -/

/-- An open port that stores at least two bytes checks the request, and hands on what passes. -/
theorem submit_open {s : State} {p : PortNo} {form : List Byte} (hp : s.powered = true)
    (hr : (s.ports.get p).role ≠ .disabled) (hm : (s.ports.get p).mailState ≠ .busy)
    (hf : form ≠ []) (code : Byte) (acc : Access) (held : Bool)
    (decide : List Byte → State → Decision) : submit p code form acc held decide s =
      match portRefusal (s.taken p code form) p acc held with
      | some st => .next ((s.taken p code form).answer p st [])
      | none => (decide (s.requestParams p code form) (s.taken p code form)).finish p := by
  have hopen : s.portOpen p = true := State.acksOffset_open hp hr hm 0
  have hform : form.isEmpty = false := by simpa using hf
  unfold submit
  rw [hopen, hform]
  rfl

theorem submitUnknown_open {s : State} {p : PortNo} {form : List Byte} (hp : s.powered = true)
    (hr : (s.ports.get p).role ≠ .disabled) (hm : (s.ports.get p).mailState ≠ .busy)
    (hf : form ≠ []) (code : Byte) : submitUnknown p code form s =
      .next ((s.taken p code form).answer p
        (if s.ready = false then .notReady
         else if 126 < ((s.taken p code form).ports.get p).formLength then .badForm
         else .unknownRequest) []) := by
  have hopen : s.portOpen p = true := State.acksOffset_open hp hr hm 0
  have hform : form.isEmpty = false := by simpa using hf
  unfold submitUnknown
  rw [hopen, hform]
  cases s.ready <;> rfl

theorem submit_shut {s : State} {p : PortNo} (h : s.portOpen p = false) (code : Byte)
    (form : List Byte) (acc : Access) (held : Bool) (decide : List Byte → State → Decision) :
    submit p code form acc held decide s = .next s := by
  rw [submit, h]
  rfl

theorem submission_shut {s : State} {p : PortNo} (h : s.portOpen p = false) (code : Byte)
    (form : List Byte) : submission p code form s = .next s := by
  rcases submission_cases p code form s with ⟨k, acc, held, decide, he⟩ | he
  · rw [he, submit_shut h]
  · rw [he, submitUnknown, h]
    rfl

/-- A request of the catalogue is the submission of its code and bytes. -/
theorem submission_request {c : Instr} {r : Request} (h : asRequest c = some r) (s : State) :
    submission r.port r.code r.form s.expireDue = exec c s := by
  cases c <;> cases h <;> rfl

/-- A code outside the catalogue is submitted as unknown (R184). -/
theorem submission_unknown {code : Byte} (h : catalogue.contains code = false) (p : PortNo)
    (form : List Byte) (s : State) : submission p code form s = submitUnknown p code form s := by
  unfold submission
  split
  case h_31 => rfl
  all_goals
    next hcode =>
      have hlisted : BitVec.ofNat 8 code.toNat = code := by simp
      rw [← hlisted, hcode] at h
      exact absurd h (by decide)

/-! ## Write transfers (R182, R183) -/

/-- A transfer that is no submission stores its bytes. -/
theorem onMailboxWrite_plain {off : Byte} {bytes : List Byte} {stop : Bool}
    (h : off ≠ 0 ∨ stop = false ∨ bytes.length < 2) (p : PortNo) (s : State) :
    onMailboxWrite p off bytes stop s = .next (s.storeAt p off.toNat bytes) := by
  unfold onMailboxWrite
  split
  next code b rest =>
    refine if_neg fun hsub => ?_
    rcases h with h | h | h
    · exact h hsub.1
    · simp [h] at hsub
    · simp at h
  next => rfl

/-- A transfer from offset 00h of at least two bytes that ends with a stop is a submission. -/
theorem onMailboxWrite_submission {form : List Byte} (h : form ≠ []) (p : PortNo) (code : Byte)
    (s : State) : onMailboxWrite p 0 (code :: form) true s = submission p code form s := by
  cases form with
  | nil => exact absurd rfl h
  | cons b rest => simp [onMailboxWrite]

theorem onMailboxWrite_shut {s : State} {p : PortNo}
    (h : (s.ports.get p).role = .disabled ∨ (s.ports.get p).mailState = .busy) (off : Byte)
    (bytes : List Byte) (stop : Bool) : onMailboxWrite p off bytes stop s = .next s := by
  unfold onMailboxWrite
  split
  · split
    · exact submission_shut (State.portOpen_shut h) _ _
    · rw [State.storeAt_shut h]
  · rw [State.storeAt_shut h]

/-! ## Read transfers (R181, R182) -/

theorem State.readTransfer_none_iff {s : State} {p : PortNo} {address off n : Nat} :
    s.readTransfer p address off n = none ↔ s.powered = false ∨
      (s.ports.get p).role = .disabled ∨ address ≠ 0x38 + p.val ∨
      ((s.ports.get p).mailState = .busy ∧ off < 128) := by
  have hacks : s.readTransfer p address off n = none ↔
      ¬ (s.acksAddress p address = true ∧ s.acksOffset p off = true) := by
    rw [State.readTransfer, ← Bool.and_eq_true]
    split <;> simp [*]
  rw [hacks, State.acksAddress_iff, State.acksOffset_iff, ← Bool.not_eq_true, ← Nat.not_le]
  tauto

theorem State.readTransfer_some {s : State} {p : PortNo} {address off n : Nat} {bs : List Byte}
    (h : s.readTransfer p address off n = some bs) :
    bs = (List.range' off n).map (s.ports.get p).readByte := by
  unfold State.readTransfer at h
  split at h
  · exact (Option.some.inj h).symm
  · cases h

theorem getD_map_range' (f : Nat → Byte) {off n i : Nat} (h : i < n) :
    ((List.range' off n).map f).getD i 0 = f (off + i) := by
  simp [List.getD_eq_getElem?_getD, h]

end Sys2Proof.Machine

namespace Sys2Proof.Proofs

open Sys2Proof.Machine

/-- Settles O4: a plain transfer by its store, a submission by its code, a read by the port's bytes. -/
theorem writeTransfers : Obligations.WriteTransfers := by
  refine ⟨⟨?_, ?_⟩, ⟨?_, ?_⟩, ?_⟩
  · intro p off bytes stop s hp hd hr hm hlen hplain
    have hstore : exec (.mailboxWrite p off bytes stop) s =
        .next (s.modifyPort p (Port.store off.toNat bytes)) := by
      show onMailboxWrite p off bytes stop s.expireDue = _
      rw [State.expireDue_noneDue hd, onMailboxWrite_plain hplain, State.storeAt,
        if_pos (State.acksOffset_open hp hr hm _)]
    obtain ⟨hframe, hothers⟩ := State.modifyPort_frame p (Port.store off.toNat bytes) s
    refine ⟨_, hstore, fun i _ => ?_, hframe, hothers, ?_⟩
    · rw [State.modifyPort_ports, Ports.get_put, Port.readByte_store hlen]
    · rw [State.modifyPort_ports, Ports.get_put]
      rfl
  · intro p off bytes stop s hp hd hshut
    show onMailboxWrite p off bytes stop s.expireDue = _
    rw [State.expireDue_noneDue hd, onMailboxWrite_shut hshut]
  · intro c r s hr hf
    refine ⟨?_, submission_request hr s⟩
    rw [← submission_request hr s]
    exact onMailboxWrite_submission hf _ _ _
  · intro p code form s hcode hp hd hr hm hf
    refine ⟨onMailboxWrite_submission hf p code _, ?_⟩
    show submission p code form s.expireDue = _
    rw [State.expireDue_noneDue hd, submission_unknown hcode, submitUnknown_open hp hr hm hf]
    rfl
  · intro p address off n s
    refine ⟨State.readTransfer_none_iff, fun bs hbs => ?_⟩
    obtain rfl := State.readTransfer_some hbs
    refine ⟨by simp, fun i hi hlen => ?_⟩
    rw [getD_map_range' _ hi, Port.readByte]
    split
    · rfl
    next hpast => exact List.getD_eq_default _ _ (by omega)

end Sys2Proof.Proofs
end

section
/-! SUPPORT. The event flags: the lowest pending code, an event raised at a port, the attention line, and
the requests on them. -/

namespace Sys2Proof.Machine

/-! ## The lowest pending code (R190) -/

/-- Counting up from code `k + 1` over `n` codes: 0 when no bit of those is set, otherwise the lowest
code whose bit is. -/
theorem lowestCodeFrom_spec (w : BitVec 16) (k n : Nat) :
    (lowestCodeFrom w (k + 1) n = 0 ∧ ∀ j, k ≤ j → j < k + n → w.getLsbD j = false) ∨
      ∃ i, lowestCodeFrom w (k + 1) n = i + 1 ∧ i < k + n ∧ w.getLsbD i = true ∧
        ∀ j, k ≤ j → j < i → w.getLsbD j = false := by
  induction n generalizing k with
  | zero => exact .inl ⟨rfl, fun j hlo hhi => by omega⟩
  | succ n ih =>
    rw [lowestCodeFrom, Nat.add_sub_cancel]
    by_cases hbit : w.getLsbD k = true
    · rw [if_pos hbit]
      exact .inr ⟨k, rfl, by omega, hbit, fun j hlo hhi => by omega⟩
    · rw [if_neg hbit]
      have clear : ∀ j, k ≤ j → (k + 1 ≤ j → w.getLsbD j = false) → w.getLsbD j = false := by
        intro j hlo hj
        rcases Nat.eq_or_lt_of_le hlo with rfl | hlt
        · simpa using hbit
        · exact hj hlt
      rcases ih (k + 1) with ⟨hz, hall⟩ | ⟨i, hi, hlt, hset, hall⟩
      · exact .inl ⟨hz, fun j hlo hhi => clear j hlo fun h => hall j h (by omega)⟩
      · exact .inr ⟨i, hi, by omega, hset, fun j hlo hhi => clear j hlo fun h => hall j h hhi⟩

/-- READ_EVENTS' code: 0 when no pending flag is enabled, otherwise the lowest code that is. -/
theorem Port.lowestPending_spec (q : Port) :
    (q.lowestPending = 0 → q.flags &&& q.mask = 0) ∧
      (q.lowestPending ≠ 0 → q.lowestPending ≤ 16 ∧
        (q.flags &&& q.mask).getLsbD (q.lowestPending - 1) = true ∧
        ∀ j, j < q.lowestPending - 1 → (q.flags &&& q.mask).getLsbD j = false) := by
  rcases lowestCodeFrom_spec (q.flags &&& q.mask) 0 16 with ⟨hz, hall⟩ | ⟨i, hi, hlt, hset, hall⟩
  · have hz' : q.lowestPending = 0 := hz
    refine ⟨fun _ => BitVec.eq_of_getLsbD_eq fun j hj => ?_, fun h => absurd hz' h⟩
    exact (hall j (Nat.zero_le j) (by omega)).trans BitVec.getLsbD_zero.symm
  · have hi' : q.lowestPending = i + 1 := hi
    rw [hi', Nat.add_sub_cancel]
    exact ⟨fun h => absurd h (Nat.succ_ne_zero i),
      fun _ => ⟨by omega, hset, fun j hj => hall j (Nat.zero_le j) hj⟩⟩

/-! ## An event raised (R189) -/

theorem Event.code_pos (e : Event) : 1 ≤ e.code := by cases e <;> decide

theorem Event.getLsbD_bit (e : Event) {k : Nat} (hk : k < 16) :
    e.bit.getLsbD k = decide (k + 1 = e.code) := by
  have hpos := e.code_pos
  rw [Event.bit, BitVec.getLsbD_twoPow, Bool.eq_iff_iff]
  simp only [Bool.and_eq_true, decide_eq_true_eq]
  omega

/-- A raised event becomes pending at an enabled port, and no flag changes at a DISABLED one. -/
theorem Port.getLsbD_raise (e : Event) (q : Port) {k : Nat} (hk : k < 16) :
    (q.raise e).flags.getLsbD k =
      (q.flags.getLsbD k || (decide (q.role ≠ .disabled) && decide (k + 1 = e.code))) := by
  unfold Port.raise
  by_cases h : q.role = .disabled
  · simp [h]
  · rw [if_neg h, BitVec.getLsbD_or, Event.getLsbD_bit e hk, decide_eq_true h, Bool.true_and]

/-! ## The attention line (R191) -/

theorem ne_zero_iff_getLsbD {w : BitVec 16} : w ≠ 0 ↔ ∃ k, k < 16 ∧ w.getLsbD k = true := by
  constructor
  · intro h
    by_contra hn
    refine h (BitVec.eq_of_getLsbD_eq fun k hk => ?_)
    have hclear : w.getLsbD k = false := by
      rw [← Bool.not_eq_true]
      exact fun hb => hn ⟨k, hk, hb⟩
    exact hclear.trans BitVec.getLsbD_zero.symm
  · rintro ⟨k, -, hb⟩ rfl
    simp at hb

theorem Port.attentionLow_iff (x : Port) : x.attentionLow = true ↔ x.role ≠ .disabled ∧
    ∃ k, k < 16 ∧ x.flags.getLsbD k = true ∧ x.mask.getLsbD k = true := by
  have hline : x.attentionLow = true ↔ x.role ≠ .disabled ∧ x.flags &&& x.mask ≠ 0 := by
    simp [Port.attentionLow]
  rw [hline, ne_zero_iff_getLsbD]
  simp only [BitVec.getLsbD_and, Bool.and_eq_true]

/-- STARTUP is pending and enabled at start-up, so the line of an enabled port is low (R189). -/
theorem Port.atStartUp_attentionLow {role : Role} (h : role ≠ .disabled) (unset : Bool) :
    (Port.atStartUp role unset).attentionLow = true := by
  refine (Port.attentionLow_iff _).mpr ⟨h, 15, by decide, ?_⟩
  simp only [Port.atStartUp, if_neg h]
  cases unset <;> decide

/-! ## The requests (R190) -/

theorem readEvents_decided (p : PortNo) (form : List Byte) :
    DecidedBy (.readEvents p form) (decideReadEvents p) := fun _ h _ => by cases h; rfl

theorem clearEvents_decided (p : PortNo) (form : List Byte) :
    DecidedBy (.clearEvents p form) (decideClearEvents p) := fun _ h _ => by cases h; rfl

theorem setMask_decided (p : PortNo) (form : List Byte) :
    DecidedBy (.setMask p form) (decideSetMask p) := fun _ h _ => by cases h; rfl

/-- Taking a submission leaves its port's flags and mask. -/
theorem State.taken_flags (p : PortNo) (code : Byte) (form : List Byte) (s : State) :
    ((s.taken p code form).ports.get p).flags = (s.ports.get p).flags ∧
      ((s.taken p code form).ports.get p).mask = (s.ports.get p).mask := by
  rw [State.taken_ports, Ports.get_put]
  exact ⟨rfl, rfl⟩

theorem decideReadEvents_eq (p : PortNo) (s : State) : decideReadEvents p [] s =
    .reply .ok (enc8 (s.ports.get p).lowestPending ++ bytes16 (s.ports.get p).flags ++
      bytes16 (s.ports.get p).mask) s := rfl

theorem decideClearEvents_eq {ps : List Byte} (h : ps.length = 2) (p : PortNo) (s : State) :
    decideClearEvents p ps s = .reply .ok (bytes16 ((s.ports.get p).flags &&& ~~~setAt ps 0))
      (s.modifyPort p fun q => { q with flags := q.flags &&& ~~~setAt ps 0 }) :=
  if_neg (not_not_intro h)

theorem decideSetMask_eq {ps : List Byte} (h : ps.length = 2) (p : PortNo) (s : State) :
    decideSetMask p ps s =
      .reply .ok [] (s.modifyPort p fun q => { q with mask := setAt ps 0 }) :=
  if_neg (not_not_intro h)

end Sys2Proof.Machine

namespace Sys2Proof.Proofs

open Sys2Proof.Machine

/-- Settles O6: the requests by their decisions on the port with the submission taken, an event and the
line bit by bit. -/
theorem eventRequests : Obligations.EventRequests := by
  refine ⟨⟨?_, ?_, ?_⟩, ?_, Port.attentionLow_iff, fun role unset h =>
    Port.atStartUp_attentionLow h unset⟩
  · rintro p form s r hr h hg
    refine ⟨(s.ports.get p).lowestPending, ?_, Port.lowestPending_spec _⟩
    refine Handed.reply ⟨hr, h, hg⟩ (readEvents_decided p form) ?_
    cases hr
    obtain ⟨hflags, hmask⟩ := State.taken_flags p 0x50 form s
    simp only [decideReadEvents_eq, Port.lowestPending, hflags, hmask, id]
  · rintro p form s r hr h hg
    refine Handed.reply ⟨hr, h, rfl⟩ (clearEvents_decided p form) ?_
    rw [decideClearEvents_eq hg]
    cases hr
    rw [(State.taken_flags p 0x51 form s).1]
  · intro p form s r hr h hg
    exact Handed.reply ⟨hr, h, rfl⟩ (setMask_decided p form) (decideSetMask_eq hg p _)
  · intro e s q
    rw [State.raise_ports, Ports.get_raise]
    exact ⟨fun k hk => Port.getLsbD_raise e _ hk, rfl, rfl⟩

end Sys2Proof.Proofs
end

section
/-! SUPPORT. The refusals of a request: the port's checks, the owner's first checks, and that a refused
request leaves everything but its mailbox. -/

namespace Sys2Proof.Machine

/-! ## The port's own checks (R184) -/

/-- The port's checks in their order, on the state with the submission taken. -/
theorem portRefusal_taken (s : State) (r : Request) :
    portRefusal (s.taken r.port r.code r.form) r.port r.access r.held =
      if s.ready = false then some .notReady
      else if 126 < ((s.taken r.port r.code r.form).ports.get r.port).formLength then some .badForm
      else if r.access.allows (s.ports.get r.port).role = false then some .role
      else if r.held = true ∧ s.journal.settingsInFlight = true then some .notReady
      else none := by
  have hready : (s.taken r.port r.code r.form).ready = s.ready := rfl
  have hrole : ((s.taken r.port r.code r.form).ports.get r.port).role =
      (s.ports.get r.port).role := by
    rw [State.taken_ports, Ports.get_put]
    rfl
  have hjournal : (s.taken r.port r.code r.form).journal = s.journal := rfl
  rw [portRefusal, hready, hrole, hjournal]
  simp only [Bool.not_eq_true', Bool.and_eq_true]

/-- A request at an open port that fails one of the port's checks is answered with its refusal. -/
theorem exec_portRefused {c : Instr} {r : Request} {s : State} {st : Status}
    (hr : asRequest c = some r) (hp : s.powered = true) (hd : s.noneDue = true)
    (hrole : (s.ports.get r.port).role ≠ .disabled)
    (hmail : (s.ports.get r.port).mailState ≠ .busy) (hf : r.form ≠ [])
    (h : portRefusal (s.taken r.port r.code r.form) r.port r.access r.held = some st) :
    exec c s = s.replied r st [] id := by
  obtain ⟨decide, he⟩ := exec_request hr
  rw [he, State.expireDue_noneDue hd, submit_open hp hrole hmail hf, h]
  rfl

/-! ## The owner's first checks (R187) -/

/-- A request handed on that its owner refuses is answered with that refusal. -/
theorem exec_refused {c : Instr} {r : Request} {s : State} {decide : List Byte → State → Decision}
    {st : Status} (hr : asRequest c = some r) (h : s.handsOn r) (hc : DecidedBy c decide)
    (hd : decide (s.given r) (s.taken r.port r.code r.form) =
      refuse st (s.taken r.port r.code r.form)) : exec c s = s.replied r st [] id :=
  Handed.reply ⟨hr, h, rfl⟩ hc hd

theorem stageForm_length {ps : List Byte}
    (h : ps.length % 3 ≠ 0 ∨ ps.length = 0 ∨ 48 < ps.length) : (!stageFormOk ps) = true := by
  have hlen : ¬ (ps.length % 3 = 0 ∧ 1 ≤ ps.length / 3 ∧ ps.length / 3 ≤ 16) := by omega
  rw [Bool.not_eq_true', ← Bool.not_eq_true]
  simp only [stageFormOk, Bool.and_eq_true, beq_iff_eq, decide_eq_true_eq]
  exact fun hok => hlen ⟨hok.1.1.1, hok.1.1.2, hok.1.2⟩

/-- A request whose parameters do not have their form's length is refused with BAD_FORM. -/
theorem exec_badForm {c : Instr} {r : Request} {s : State} (hr : asRequest c = some r)
    (h : s.handsOn r)
    (hlen : match r.code.toNat with
      | 0x01 => (s.given r).length ≠ 20
      | 0x04 => (s.given r).length ≠ 0 ∧ (s.given r).length ≠ 3
      | 0x02 | 0x03 | 0x06 | 0x10 | 0x20 => (s.given r).length ≠ 3
      | 0x18 | 0x39 => (s.given r).length ≠ 4
      | 0x30 => (s.given r).length ≠ 11
      | 0x31 | 0x3A | 0x40 | 0x51 | 0x52 => (s.given r).length ≠ 2
      | 0x38 => (s.given r).length ≠ 1 + 7 * byteAt (s.given r) 0
      | 0x41 => (s.given r).length ≠ 5
      | 0x48 => (s.given r).length % 3 ≠ 0 ∨ (s.given r).length = 0 ∨ 48 < (s.given r).length
      | 0x49 => (s.given r).length ≠ 2 + 7 * byteAt (s.given r) 1
      | 0x58 => (s.given r).length ≠ 1
      | _ => (s.given r).length ≠ 0) : exec c s = s.replied r .badForm [] id := by
  cases c <;> cases hr
  case declare.refl p form => exact exec_refused rfl h (declare_decided p form) (if_pos hlen)
  case withdraw.refl p form => exact exec_refused rfl h (withdraw_decided p form) (if_pos hlen)
  case abandon.refl p form => exact exec_refused rfl h (abandon_decided p form) (if_pos hlen)
  case seek.refl p form =>
    exact exec_refused rfl h (seek_decided p form)
      ((if_neg hlen.1).trans (if_pos hlen.2))
  case nextRecord.refl p form => exact exec_refused rfl h (nextRecord_decided p form) (if_pos hlen)
  case inspect.refl p form => exact exec_refused rfl h (inspect_decided p form) (if_pos hlen)
  case startWinch.refl p form => exact exec_refused rfl h (startWinch_decided p form) (if_pos hlen)
  case continueWinch.refl p form =>
    exact exec_refused rfl h (continueWinch_decided p form) (if_pos hlen)
  case abortWinch.refl p form => exact exec_refused rfl h (abortWinch_decided p form) (if_pos hlen)
  case startGrout.refl p form => exact exec_refused rfl h (startGrout_decided p form) (if_pos hlen)
  case continueGrout.refl p form =>
    exact exec_refused rfl h (continueGrout_decided p form) (if_pos hlen)
  case abortGrout.refl p form => exact exec_refused rfl h (abortGrout_decided p form) (if_pos hlen)
  case startTest.refl p form => exact exec_refused rfl h (startTest_decided p form) (if_pos hlen)
  case abortTest.refl p form => exact exec_refused rfl h (abortTest_decided p form) (if_pos hlen)
  case clearTrip.refl p form => exact exec_refused rfl h (clearTrip_decided p form) (if_pos hlen)
  case postBatch.refl p form => exact exec_refused rfl h (postBatch_decided p form) (if_pos hlen)
  case discardBatch.refl p form =>
    exact exec_refused rfl h (discardBatch_decided p form) (if_pos hlen)
  case postWall.refl p form =>
    exact exec_refused rfl h (postWall_decided p form) (if_pos (.inr (.inr hlen)))
  case setTime.refl p form => exact exec_refused rfl h (setTime_decided p form) (if_pos hlen)
  case shiftTime.refl p form => exact exec_refused rfl h (shiftTime_decided p form) (if_pos hlen)
  case readPanels.refl p form =>
    exact exec_refused rfl h (readPanels_decided p form) (if_pos (.inl hlen))
  case readJournal.refl p form =>
    exact exec_refused rfl h (readJournal_decided p form) (if_pos (.inl hlen))
  case stageSetting.refl p form =>
    exact exec_refused rfl h (stageSetting_decided p form) (if_pos (stageForm_length hlen))
  case stageProfile.refl p form =>
    exact exec_refused rfl h (stageProfile_decided p form) (if_pos hlen)
  case dropStaging.refl p form => exact exec_refused rfl h (dropStaging_decided p form) (if_pos hlen)
  case commitSettings.refl p form =>
    exact exec_refused rfl h (commitSettings_decided p form) (if_pos hlen)
  case readEvents.refl p form => exact exec_refused rfl h (readEvents_decided p form) (if_pos hlen)
  case clearEvents.refl p form =>
    exact exec_refused rfl h (clearEvents_decided p form) (if_pos hlen)
  case setMask.refl p form => exact exec_refused rfl h (setMask_decided p form) (if_pos hlen)
  case partStatus.refl p form => exact exec_refused rfl h (partStatus_decided p form) (if_pos hlen)

/-! ## Requests that name a record by its position -/

/-- With three parameter bytes a decision first refuses a position out of range, then one without a
record. -/
def ChecksPosition (decide : List Byte → State → Decision) : Prop :=
  ∀ (ps : List Byte) (s : State), ps.length = 3 →
    ((positionAt ps 0).valid = false → decide ps s = refuse .outOfRange s) ∧
    ((positionAt ps 0).valid = true → s.register.find (positionAt ps 0) = none →
      decide ps s = refuse .noAnchor s)

theorem withdraw_checksPosition : ChecksPosition decideWithdraw := fun _ _ hl =>
  ⟨fun hv => by simp [decideWithdraw, hl, hv], fun hv hn => by simp [decideWithdraw, hl, hv, hn]⟩

theorem abandon_checksPosition : ChecksPosition decideAbandon := fun _ _ hl =>
  ⟨fun hv => by simp [decideAbandon, hl, hv], fun hv hn => by simp [decideAbandon, hl, hv, hn]⟩

theorem inspect_checksPosition : ChecksPosition decideInspect := fun _ _ hl =>
  ⟨fun hv => by simp [decideInspect, hl, hv], fun hv hn => by simp [decideInspect, hl, hv, hn]⟩

theorem startWinch_checksPosition : ChecksPosition decideStartWinch := fun _ _ hl =>
  ⟨fun hv => by simp [decideStartWinch, hl, hv],
    fun hv hn => by simp [decideStartWinch, hl, hv, hn]⟩

theorem startTest_checksPosition : ChecksPosition decideStartTest := fun _ _ hl =>
  ⟨decideStartTest_invalid hl, decideStartTest_noAnchor hl⟩

theorem exec_checksPosition {c : Instr} {r : Request} {s : State}
    {decide : List Byte → State → Decision} (hr : asRequest c = some r) (h : s.handsOn r)
    (hc : DecidedBy c decide) (hd : ChecksPosition decide) (hl : (s.given r).length = 3) :
    ((positionAt (s.given r) 0).valid = false → exec c s = s.replied r .outOfRange [] id) ∧
    ((positionAt (s.given r) 0).valid = true → s.register.find (positionAt (s.given r) 0) = none →
      exec c s = s.replied r .noAnchor [] id) := by
  obtain ⟨hrange, hnone⟩ := hd (s.given r) (s.taken r.port r.code r.form) hl
  exact ⟨fun hv => exec_refused hr h hc (hrange hv),
    fun hv hn => exec_refused hr h hc (hnone hv hn)⟩

/-- The five requests whose parameters are a position alone check it. -/
theorem exec_ofPosition {c : Instr} {r : Request} {s : State} (hr : asRequest c = some r)
    (h : s.handsOn r) (hl : (s.given r).length = 3)
    (hcode : r.code = 0x02 ∨ r.code = 0x03 ∨ r.code = 0x06 ∨ r.code = 0x10 ∨ r.code = 0x20) :
    ((positionAt (s.given r) 0).valid = false → exec c s = s.replied r .outOfRange [] id) ∧
    ((positionAt (s.given r) 0).valid = true → s.register.find (positionAt (s.given r) 0) = none →
      exec c s = s.replied r .noAnchor [] id) := by
  cases c <;> cases hr
  case withdraw.refl p form =>
    exact exec_checksPosition rfl h (withdraw_decided p form) withdraw_checksPosition hl
  case abandon.refl p form =>
    exact exec_checksPosition rfl h (abandon_decided p form) abandon_checksPosition hl
  case inspect.refl p form =>
    exact exec_checksPosition rfl h (inspect_decided p form) inspect_checksPosition hl
  case startWinch.refl p form =>
    exact exec_checksPosition rfl h (startWinch_decided p form) startWinch_checksPosition hl
  case startTest.refl p form =>
    exact exec_checksPosition rfl h (startTest_decided p form) startTest_checksPosition hl
  all_goals simp at hcode

/-! ## Refusals change nothing but the mailbox -/

/-- Every reply but OK and OK_CLAMPED leaves the state as it was, and a decision left BUSY leaves the
ports. -/
def Decision.Clean (s : State) : Decision → Prop
  | .reply st _ t => st = .ok ∨ st = .okClamped ∨ t = s
  | .busy t => t.ports = s.ports

namespace Decision.Clean

variable {s t : State} {st : Status} {data : List Byte} {d d' : Decision} {c : Prop} [Decidable c]

theorem ok : (Decision.reply .ok data t).Clean s := .inl rfl

theorem okOr : (Decision.reply (if c then .okClamped else .ok) data t).Clean s := by
  by_cases h : c
  · exact .inr (.inl (if_pos h))
  · exact .inl (if_neg h)

theorem clampedOr : (Decision.reply (if c then .ok else .okClamped) data t).Clean s := by
  by_cases h : c
  · exact .inl (if_pos h)
  · exact .inr (.inl (if_neg h))

theorem same : (Decision.reply st data s).Clean s := .inr (.inr rfl)

theorem ite (h : d.Clean s) (h' : d'.Clean s) : (if c then d else d').Clean s := by
  split
  · exact h
  · exact h'

/-- A check that refuses, and what follows it. -/
theorem refuseIf (h : d.Clean s) : (if c then refuse st s else d).Clean s := ite same h

end Decision.Clean

section
variable (p : PortNo) (ps : List Byte) (s : State)

theorem decideDeclare_clean : (decideDeclare ps s).Clean s := by
  refine .refuseIf ?_
  split
  · exact .same
  · exact .refuseIf (.refuseIf .ok)

theorem decideWithdraw_clean : (decideWithdraw ps s).Clean s := by
  refine .refuseIf (.refuseIf ?_)
  split
  · exact .same
  · exact .refuseIf .ok

theorem decideAbandon_clean : (decideAbandon ps s).Clean s := by
  refine .refuseIf (.refuseIf ?_)
  split
  · exact .same
  · exact .ite .ok .same

theorem decideSeek_clean : (decideSeek p ps s).Clean s := .ite .ok (.refuseIf (.refuseIf .ok))

theorem decideNext_clean : (decideNext p ps s).Clean s := by
  refine .refuseIf ?_
  split
  · exact .ok
  · exact .same

theorem decideInspect_clean : (decideInspect ps s).Clean s := by
  refine .refuseIf (.refuseIf ?_)
  split <;> exact .same

theorem decideStartWinch_clean : (decideStartWinch ps s).Clean s := by
  refine .refuseIf (.refuseIf ?_)
  split
  · exact .same
  · exact .refuseIf (.refuseIf (.refuseIf (.refuseIf .ok)))

theorem decideContinueWinch_clean : (decideContinueWinch ps s).Clean s :=
  .refuseIf (.refuseIf (.refuseIf (.refuseIf .ok)))

theorem decideAbortWinch_clean : (decideAbortWinch ps s).Clean s := .refuseIf (.refuseIf .ok)

theorem decideStartGrout_clean : (decideStartGrout ps s).Clean s := by
  refine .refuseIf ?_
  split
  · exact .same
  · refine .refuseIf ?_
    split
    · exact .same
    · exact .refuseIf (.refuseIf (.refuseIf (.refuseIf (.refuseIf (.refuseIf .ok)))))

theorem decideContinueGrout_clean : (decideContinueGrout ps s).Clean s :=
  .refuseIf (.refuseIf (.refuseIf .ok))

theorem decideAbortGrout_clean : (decideAbortGrout ps s).Clean s := .refuseIf (.refuseIf .ok)

theorem decideTestPermit_clean (a : Anchor) (steps : List Step) :
    (decideTestPermit a steps s).Clean s := by
  refine .refuseIf ?_
  split
  · exact .same
  · split
    · exact .same
    · exact .refuseIf .ok

theorem decideTestProfile_clean (a : Anchor) : (decideTestProfile a s).Clean s := by
  unfold decideTestProfile
  split
  · exact .same
  · exact .ite .same (decideTestPermit_clean s a _)

theorem decideStartTest_clean : (decideStartTest ps s).Clean s := by
  refine .refuseIf (.refuseIf ?_)
  split
  · exact .same
  · refine .refuseIf (.refuseIf (.refuseIf (.refuseIf (.refuseIf (.ite .same (.refuseIf ?_))))))
    split
    · exact .same
    · exact decideTestProfile_clean s _

theorem decideAbortTest_clean : (decideAbortTest ps s).Clean s := by
  refine .refuseIf ?_
  split
  case h_2 | h_3 | h_4 | h_5 => exact .ok
  case h_10 => split <;> exact .same
  all_goals exact .same

theorem decideClearTrip_clean : (decideClearTrip ps s).Clean s :=
  .refuseIf (.refuseIf (.ite .ok .ok))

theorem decidePostBatch_clean : (decidePostBatch ps s).Clean s := by
  refine .refuseIf ?_
  split
  · exact .same
  · exact .refuseIf (.refuseIf (.refuseIf (.refuseIf (.refuseIf (.refuseIf (.refuseIf .ok))))))

theorem decideDiscardBatch_clean : (decideDiscardBatch ps s).Clean s := by
  refine .refuseIf ?_
  split
  · exact .same
  · exact .ok

theorem decidePostWall_clean : (decidePostWall ps s).Clean s := .refuseIf (.refuseIf .okOr)

theorem decideSetTime_clean : (decideSetTime ps s).Clean s := .refuseIf (.refuseIf .ok)

theorem decideShiftTime_clean : (decideShiftTime ps s).Clean s :=
  .refuseIf (.refuseIf (.refuseIf .clampedOr))

theorem decideReadPanels_clean : (decideReadPanels ps s).Clean s := .refuseIf (.refuseIf .ok)

theorem decideReadJournal_clean : (decideReadJournal ps s).Clean s :=
  .refuseIf (.refuseIf (.refuseIf .same))

theorem decideStageSetting_clean : (decideStageSetting p ps s).Clean s :=
  .refuseIf (.refuseIf .okOr)

theorem decideStageProfile_clean : (decideStageProfile p ps s).Clean s := by
  refine .refuseIf (.refuseIf (.refuseIf ?_))
  split
  · exact .same
  · exact .ok
  · exact .same

theorem decideDropStaging_clean : (decideDropStaging p ps s).Clean s := .refuseIf (.refuseIf .ok)

theorem decideCommitImage_clean (image : Settings) : (decideCommitImage p image s).Clean s := by
  unfold decideCommitImage
  split
  · exact .same
  · exact .refuseIf (.ite .same rfl)

theorem decideCommit_clean : (decideCommit p ps s).Clean s := by
  refine .refuseIf ?_
  split
  · exact .same
  · exact .refuseIf (.refuseIf (decideCommitImage_clean p s _))

theorem decideReadEvents_clean : (decideReadEvents p ps s).Clean s := .refuseIf .ok

theorem decideClearEvents_clean : (decideClearEvents p ps s).Clean s := .refuseIf .ok

theorem decideSetMask_clean : (decideSetMask p ps s).Clean s := .refuseIf .ok

theorem decidePartStatus_clean : (decidePartStatus ps s).Clean s := by
  refine .refuseIf ?_
  split <;> exact .same

end

/-! ## What every owner's decision keeps -/

/-- An owner's decision keeps what every shared operation keeps, and its refusals change nothing. -/
structure OwnerDecides (decide : List Byte → State → Decision) : Prop where
  keeps : ∀ {P : State → Prop}, Keeps P → ∀ ps u, P u → (decide ps u).After P
  clean : ∀ ps u, (decide ps u).Clean u

/-- A request command is a submission that its owner decides so. -/
theorem exec_request_owned {c : Instr} {r : Request} (h : asRequest c = some r) :
    ∃ decide, OwnerDecides decide ∧ ∀ s, exec c s =
      submit r.port r.code r.form r.access r.held decide s.expireDue := by
  cases c <;> cases h
  case declare.refl p form =>
    exact ⟨_, ⟨fun k _ _ => k.declared _, decideDeclare_clean⟩, fun _ => rfl⟩
  case withdraw.refl p form =>
    exact ⟨_, ⟨fun k _ _ => k.withdrawn _, decideWithdraw_clean⟩, fun _ => rfl⟩
  case abandon.refl p form =>
    exact ⟨_, ⟨fun k _ _ => k.abandoned _, decideAbandon_clean⟩, fun _ => rfl⟩
  case seek.refl p form => exact ⟨_, ⟨fun k _ _ => k.sought p _, decideSeek_clean p⟩, fun _ => rfl⟩
  case nextRecord.refl p form =>
    exact ⟨_, ⟨fun k _ _ => k.nexted p _, decideNext_clean p⟩, fun _ => rfl⟩
  case inspect.refl p form =>
    exact ⟨_, ⟨fun _ _ _ => Keeps.inspected _, decideInspect_clean⟩, fun _ => rfl⟩
  case startWinch.refl p form =>
    exact ⟨_, ⟨fun k _ _ => k.winchStarted _, decideStartWinch_clean⟩, fun _ => rfl⟩
  case continueWinch.refl p form =>
    exact ⟨_, ⟨fun k _ _ => k.winchContinued _, decideContinueWinch_clean⟩, fun _ => rfl⟩
  case abortWinch.refl p form =>
    exact ⟨_, ⟨fun k _ _ => k.winchAborted _, decideAbortWinch_clean⟩, fun _ => rfl⟩
  case startGrout.refl p form =>
    exact ⟨_, ⟨fun k _ _ => k.groutStarted _, decideStartGrout_clean⟩, fun _ => rfl⟩
  case continueGrout.refl p form =>
    exact ⟨_, ⟨fun k _ _ => k.groutContinued _, decideContinueGrout_clean⟩, fun _ => rfl⟩
  case abortGrout.refl p form =>
    exact ⟨_, ⟨fun k _ _ => k.groutAborted _, decideAbortGrout_clean⟩, fun _ => rfl⟩
  case startTest.refl p form =>
    exact ⟨_, ⟨fun k _ _ => k.testStarted _, decideStartTest_clean⟩, fun _ => rfl⟩
  case abortTest.refl p form =>
    exact ⟨_, ⟨fun k _ _ => k.testAborted _, decideAbortTest_clean⟩, fun _ => rfl⟩
  case clearTrip.refl p form =>
    exact ⟨_, ⟨fun k _ _ => k.tripCleared _, decideClearTrip_clean⟩, fun _ => rfl⟩
  case postBatch.refl p form =>
    exact ⟨_, ⟨fun k _ _ => k.batchPosted _, decidePostBatch_clean⟩, fun _ => rfl⟩
  case discardBatch.refl p form =>
    exact ⟨_, ⟨fun k _ _ => k.batchDiscarded _, decideDiscardBatch_clean⟩, fun _ => rfl⟩
  case postWall.refl p form =>
    exact ⟨_, ⟨fun k _ _ => k.wallPosted _, decidePostWall_clean⟩, fun _ => rfl⟩
  case setTime.refl p form =>
    exact ⟨_, ⟨fun k _ _ => k.timeSet _, decideSetTime_clean⟩, fun _ => rfl⟩
  case shiftTime.refl p form =>
    exact ⟨_, ⟨fun k _ _ => k.timeShifted _, decideShiftTime_clean⟩, fun _ => rfl⟩
  case readPanels.refl p form =>
    exact ⟨_, ⟨fun _ _ _ => Keeps.panelsRead _, decideReadPanels_clean⟩, fun _ => rfl⟩
  case readJournal.refl p form =>
    exact ⟨_, ⟨fun _ _ _ => Keeps.journalRead _, decideReadJournal_clean⟩, fun _ => rfl⟩
  case stageSetting.refl p form =>
    exact ⟨_, ⟨fun k _ _ => k.stageSet p _, decideStageSetting_clean p⟩, fun _ => rfl⟩
  case stageProfile.refl p form =>
    exact ⟨_, ⟨fun k _ _ => k.profileStaged p _, decideStageProfile_clean p⟩, fun _ => rfl⟩
  case dropStaging.refl p form =>
    exact ⟨_, ⟨fun k _ _ => k.stagingDropped p _, decideDropStaging_clean p⟩, fun _ => rfl⟩
  case commitSettings.refl p form =>
    exact ⟨_, ⟨fun k _ _ => k.committed p _, decideCommit_clean p⟩, fun _ => rfl⟩
  case readEvents.refl p form =>
    exact ⟨_, ⟨fun _ _ _ => Keeps.eventsRead p _, decideReadEvents_clean p⟩, fun _ => rfl⟩
  case clearEvents.refl p form =>
    exact ⟨_, ⟨fun k _ _ => k.eventsCleared p _, decideClearEvents_clean p⟩, fun _ => rfl⟩
  case setMask.refl p form =>
    exact ⟨_, ⟨fun k _ _ => k.maskSet p _, decideSetMask_clean p⟩, fun _ => rfl⟩
  case partStatus.refl p form =>
    exact ⟨_, ⟨fun _ _ _ => Keeps.statusRead _, decidePartStatus_clean⟩, fun _ => rfl⟩

/-! ## A change of one mailbox alone -/

/-- Two states differ in the bytes and the state of one port's mailbox at most. -/
def State.MailOnly (p : PortNo) (s t : State) : Prop :=
  { t with ports := s.ports } = s ∧ (∀ q, q ≠ p → t.ports.get q = s.ports.get q) ∧
    { t.ports.get p with mem := (s.ports.get p).mem, mailState := (s.ports.get p).mailState } =
      s.ports.get p

theorem State.mailOnly_refl (p : PortNo) (s : State) : State.MailOnly p s s :=
  ⟨rfl, fun _ _ => rfl, rfl⟩

theorem State.mailOnly_modifyPort {p : PortNo} {f : Port → Port} {s : State}
    (h : { f (s.ports.get p) with
      mem := (s.ports.get p).mem, mailState := (s.ports.get p).mailState } = s.ports.get p) :
    State.MailOnly p s (s.modifyPort p f) := by
  obtain ⟨hframe, hothers⟩ := State.modifyPort_frame p f s
  refine ⟨hframe, hothers, ?_⟩
  rw [State.modifyPort_ports, Ports.get_put]
  exact h

theorem State.mailOnly_storeAt (p : PortNo) (off : Nat) (bs : List Byte) (s : State) :
    State.MailOnly p s (s.storeAt p off bs) := by
  unfold State.storeAt
  split
  · exact State.mailOnly_modifyPort rfl
  · exact State.mailOnly_refl p s

theorem State.answer_taken (p : PortNo) (code : Byte) (form : List Byte) (st : Status)
    (data : List Byte) (s : State) : (s.taken p code form).answer p st data =
      s.modifyPort p fun q => ((q.store 0 (code :: form)).accept).answer st data := by
  simp [State.answer, State.taken, State.modifyPort]

theorem State.mailOnly_answer_taken (p : PortNo) (code : Byte) (form : List Byte) (st : Status)
    (data : List Byte) (s : State) :
    State.MailOnly p s ((s.taken p code form).answer p st data) := by
  rw [State.answer_taken]
  exact State.mailOnly_modifyPort rfl

/-! ## The status a master reads at 81h (R183) -/

theorem Port.mailSound_accept {x : Port} (h : x.mem.length = 256) : x.accept.mailSound = true := by
  have hlen : x.accept.mem.length = 256 := by simp [Port.accept, h]
  have hbyte : x.accept.readByte 128 = 2 := Port.readByte_accept h 128
  have hstate : x.accept.mailState = .busy := rfl
  rw [Port.readByte] at hbyte
  simp only [Port.mailSound, hlen, hstate, byteAt, hbyte]
  rfl

theorem Port.length_of_mailSound {x : Port} (h : x.mailSound = true) : x.mem.length = 256 := by
  simp only [Port.mailSound, Bool.and_eq_true, beq_iff_eq] at h
  exact h.1

/-- A request whose status is neither OK nor OK_CLAMPED changes nothing but its port's mailbox. -/
theorem submit_mailOnly {p : PortNo} {code : Byte} {form : List Byte} {acc : Access} {held : Bool}
    {decide : List Byte → State → Decision} {s t : State} (hd : OwnerDecides decide)
    (hlen : (s.ports.get p).mem.length = 256)
    (h : submit p code form acc held decide s = .next t)
    (hok : (t.ports.get p).readByte 129 ≠ 0x00) (hclamped : (t.ports.get p).readByte 129 ≠ 0x01) :
    State.MailOnly p s t := by
  have hstored := Keeps.length_store 0 (code :: form) _ hlen
  have htaken : ((s.taken p code form).ports.get p).mailSound = true := by
    rw [State.taken_ports, Ports.get_put]
    exact Port.mailSound_accept hstored
  unfold submit at h
  split at h
  · cases h
    exact State.mailOnly_refl p s
  split at h
  · cases h
    exact State.mailOnly_storeAt p 0 [code] s
  split at h
  · cases h
    exact State.mailOnly_answer_taken p code form _ [] s
  have hclean := hd.clean (s.requestParams p code form) (s.taken p code form)
  have hkept := hd.keeps (keeps_port (Q := fun x => x.mailSound = true)
    (fun hx hm => hm.2.1 hx) p) (s.requestParams p code form) _ htaken
  cases hdec : decide (s.requestParams p code form) (s.taken p code form) with
  | reply st data u =>
    rw [hdec] at h hclean hkept
    cases h
    obtain ⟨-, -, hstatus, -⟩ := Port.readByte_answer (Port.length_of_mailSound hkept) st data
    rw [State.answer_ports, Ports.get_put, hstatus] at hok hclamped
    rcases hclean with rfl | rfl | rfl
    · exact absurd rfl hok
    · exact absurd rfl hclamped
    · exact State.mailOnly_answer_taken p code form st data s
  | busy u =>
    rw [hdec] at h hclean
    cases h
    have hports : t.ports = (s.taken p code form).ports := hclean
    rw [hports, State.taken_ports, Ports.get_put] at hok
    exact absurd (Port.readByte_accept hstored 129) hok

end Sys2Proof.Machine

namespace Sys2Proof.Proofs

open Sys2Proof.Machine

/-- Settles O3: the port's checks in their order, the owner's first checks request by request, and a
refusal by what every owner's decision leaves. -/
theorem portChecksAndRefusals : Obligations.PortChecksAndRefusals := by
  refine ⟨?_, ⟨fun c r s hr h hlen => exec_badForm hr h hlen,
    fun c r s hr h hl hcode => exec_ofPosition hr h hl hcode⟩, ?_⟩
  · intro c r s hr hp hd hrole hmail hf
    have refused := fun st => exec_portRefused (st := st) hr hp hd hrole hmail hf
    simp only [portRefusal_taken] at refused
    refine ⟨fun h1 => refused _ ?_, fun h1 h2 => refused _ ?_, fun h1 h2 h3 => refused _ ?_,
      fun h1 h2 h3 h4 h5 => refused _ ?_⟩
    · rw [if_pos h1]
    · rw [if_neg (by simp [h1]), if_pos h2]
    · rw [if_neg (by simp [h1]), if_neg (Nat.not_lt.mpr h2), if_pos h3]
    · rw [if_neg (by simp [h1]), if_neg (Nat.not_lt.mpr h2), if_neg (by simp [h3]),
        if_pos ⟨h4, h5⟩]
  · intro c r s t hr hd hlen hexec hok hclamped
    obtain ⟨decide, howned, he⟩ := exec_request_owned hr
    rw [he, State.expireDue_noneDue hd] at hexec
    exact submit_mailOnly howned hlen hexec hok hclamped

end Sys2Proof.Proofs
end

section
/-! SUPPORT. One step: the front command on the queue's rest (`step_cons`), or idling. -/

namespace Sys2Proof.Machine

theorem step_nil {s : State} (h : s.pending = []) : step s = .next s := by
  simp only [step, h]

end Sys2Proof.Machine

namespace Sys2Proof.Proofs

open Sys2Proof.Machine

/-- Settles O1: the two forms of the queue, each by the step's equation for it. -/
theorem stepRunsFrontCommand : Obligations.StepRunsFrontCommand :=
  ⟨fun _ _ _ => step_cons, fun _ => step_nil⟩

end Sys2Proof.Proofs
end
